-- ==== Sys2Proof/Word.lean ====
section
/-! DEFINITION. The word types of the 7240's frames and converter, and a fixed group of four like things (corners, chambers). -/

namespace Sys2Proof

/-- A byte of a frame (R164). -/
abbrev Byte := BitVec 8

/-- A 16-bit word of a frame, a record or a calibration item (R168). -/
abbrev Word := BitVec 16

/-- A 10-bit converter code (R17). -/
abbrev Code := BitVec 10

/-- Four like things: the suspension corners 1 to 4 or the ring chambers 0 to 3. -/
structure Four (α : Type) where
  c0 : α
  c1 : α
  c2 : α
  c3 : α
  deriving DecidableEq, Repr

namespace Four

def get {α : Type} (v : Four α) (j : Fin 4) : α :=
  match j with
  | 0 => v.c0
  | 1 => v.c1
  | 2 => v.c2
  | 3 => v.c3

def set {α : Type} (v : Four α) (j : Fin 4) (x : α) : Four α :=
  match j with
  | 0 => { v with c0 := x }
  | 1 => { v with c1 := x }
  | 2 => { v with c2 := x }
  | 3 => { v with c3 := x }

def map {α β : Type} (f : α → β) (v : Four α) : Four β :=
  ⟨f v.c0, f v.c1, f v.c2, f v.c3⟩

def zip {α β γ : Type} (f : α → β → γ) (v : Four α) (w : Four β) : Four γ :=
  ⟨f v.c0 w.c0, f v.c1 w.c1, f v.c2 w.c2, f v.c3 w.c3⟩

def toList {α : Type} (v : Four α) : List α := [v.c0, v.c1, v.c2, v.c3]

def all {α : Type} (x : α) : Four α := ⟨x, x, x, x⟩

end Four

end Sys2Proof
end

