-- ==== Sys2Proof/Syntax.lean ====
section
/-! DEFINITION. The commands of the 7240: one constructor per row of spec/opcode_table.json.
A request row is the receipt of one whole frame of that kind and class with a matching check (R166).
Rows that come from outside carry `after`, the time in µs since the command before them; a row that is the
running out of one of the part's own timers carries none, since its instant is the timer's (log entry 1). -/

namespace Sys2Proof

/-- The two link ports (R164). -/
inductive Port where
  | cycle
  | drive
  deriving DecidableEq, Repr

/-- A block's work on one revolution completion or standstill event. The spec lets the blocks take such an
event in any order (R61, R68, R156) and lets two trip causes found together be taken in either order (R155). -/
inductive Taker where
  | rbt
  | spm
  | ric
  | orbit
  | sensors
  | overspeed
  deriving DecidableEq, Repr

/-- What a request frame carries beside its kind and class (Table 11-1). -/
structure Request where
  port : Port
  addr : Byte
  key : Word
  params : List Word
  deriving DecidableEq, Repr

/-- What a COMMAND frame carries beside its kind, class and command code (Table 11-1, R188). -/
structure CommandRequest where
  port : Port
  addr : Byte
  params : List Word
  deriving DecidableEq, Repr

/-- The commands, in the order of spec/opcode_table.json. -/
inductive Instr where
  /-- POWER_ON: application of power, `after` µs after the command before it; `reached` is how many words a programming cut off by it had reached (R1, R181). -/
  | powerOn (after reached : Nat)
  /-- RESET_N_ASSERTED: RESET_N becomes asserted (R1). -/
  | resetNAsserted (after reached : Nat)
  /-- RESET_N_NEGATED: RESET_N becomes negated (R1). -/
  | resetNNegated (after : Nat)
  /-- RESET_TIMER_EXPIRY: the time in force of a power-on or command reset runs out (R1). -/
  | resetTimerExpiry
  /-- END_OF_START_UP: 20 ms after the load (R186). -/
  | endOfStartUp
  /-- INDEX_EDGE: an edge of INDEX and its direction; `order` is the order in which the blocks take the completion it may issue (R3, R5, R11). -/
  | indexEdge (after : Nat) (rising : Bool) (order : List Taker)
  /-- SLOT_EVENT: the next scheduled slot's due time; `codes` are what the four corners convert to (R10, R19). -/
  | slotEvent (codes : Four Code)
  /-- REST_TIMER_EXPIRY: the 3.0 s rest timer runs out (R8). -/
  | restTimerExpiry (order : List Taker)
  /-- INDEX_OVERDUE: the armed overdue window runs out (R14). -/
  | indexOverdue
  /-- STATIC_TIMER_EXPIRY: the static timer runs out; `codes` are what the four corners convert to (R29). -/
  | staticTimerExpiry (codes : Four Code)
  /-- GIVE_UP_TIMER_EXPIRY: 30 s after the delayed-lookup latch was taken (R56). -/
  | giveUpTimerExpiry
  /-- DISCARD_TIMER_EXPIRY: 2.0 s after the latch became READY (R57). -/
  | discardTimerExpiry
  /-- DWELL_TICK: the 100 ms dwell tick timer runs out (R118). -/
  | dwellTick
  /-- OPEN_INSTANT: the open instant of a chamber's window (R138). -/
  | openInstant (chamber : Fin 4)
  /-- CLOSE_INSTANT: the close instant of the opening in progress (R139). -/
  | closeInstant
  /-- BLEED_TICK: the 100 ms bleed timer runs out (R126). -/
  | bleedTick
  /-- UNKNOWN_TIMER_EXPIRY: the 30 s unknown timer runs out (R127). -/
  | unknownTimerExpiry
  /-- STRIKE_PIN_CHANGE: the STRIKE pin takes a level, `true` for asserted (R151). -/
  | strikePinChange (after : Nat) (level : Bool)
  /-- STRIKE_DEBOUNCE_EXPIRY: the strike debounce timer runs out (R151). -/
  | strikeDebounceExpiry
  /-- LIDLK_PIN_CHANGE: the LIDLK pin takes a level, `true` for asserted (R160). -/
  | lidlkPinChange (after : Nat) (level : Bool)
  /-- LID_DEBOUNCE_EXPIRY: the lid debounce timer runs out (R160). -/
  | lidDebounceExpiry
  /-- FRAME_GAP_TIMEOUT: more than 5 ms without a character on a port (R164). -/
  | frameGapTimeout (port : Port)
  /-- ANSWER_SENT: the last byte of the answer in progress on a port is sent (R166). -/
  | answerSent (after : Nat) (port : Port)
  /-- QUIET_COUNTDOWN_EXPIRY: the quiet countdown runs out (R175). -/
  | quietCountdownExpiry
  /-- WAKE_TIMER_EXPIRY: the 50 ms wake timer runs out (R177). -/
  | wakeTimerExpiry
  /-- PROGRAMMING_DONE: non-volatile programming ends (R181). -/
  | programmingDone (after : Nat)
  /-- LOOKUP_PLAN: LOOKUP of class PLAN (R101). -/
  | lookupPlan (after : Nat) (r : Request)
  /-- LOOKUP_PLATEAU: LOOKUP of class PLATEAU; the key is the slot (R101). -/
  | lookupPlateau (after : Nat) (r : Request)
  /-- LOOKUP_GRANT: LOOKUP of class GRANT (R170). -/
  | lookupGrant (after : Nat) (r : Request)
  /-- LOOKUP_ESTIMATE: LOOKUP of class ESTIMATE with key 0 (R54). -/
  | lookupEstimate (after : Nat) (r : Request)
  /-- LOOKUP_ESTIMATE_DELAYED: LOOKUP of class ESTIMATE with key 1 or 2 (R55). -/
  | lookupEstimateDelayed (after : Nat) (r : Request)
  /-- LOOKUP_LOAD: LOOKUP of class LOAD (R54). -/
  | lookupLoad (after : Nat) (r : Request)
  /-- LOOKUP_BAND: LOOKUP of class BAND; the key is the id (R75). -/
  | lookupBand (after : Nat) (r : Request)
  /-- LOOKUP_CHAMBER: LOOKUP of class CHAMBER; the key is the chamber (R147). -/
  | lookupChamber (after : Nat) (r : Request)
  /-- LOOKUP_QUEUE: LOOKUP of class QUEUE; the key is the position, 0 for the summary (R147). -/
  | lookupQueue (after : Nat) (r : Request)
  /-- LOOKUP_STATUS: LOOKUP of class STATUS (R172). -/
  | lookupStatus (after : Nat) (r : Request)
  /-- LOOKUP_CAL: LOOKUP of class CAL; the key is the item, 0 for the summary (R182). -/
  | lookupCal (after : Nat) (r : Request)
  /-- APPEND: APPEND of class PLATEAU: target, dwell, floor, auto-balance (R96). -/
  | append (after : Nat) (r : Request)
  /-- AMEND_PLATEAU: AMEND of class PLATEAU; the key is the slot (R97, R98). -/
  | amendPlateau (after : Nat) (r : Request)
  /-- AMEND_LOAD: AMEND of class LOAD: a class or 0100H for AUTO (R35). -/
  | amendLoad (after : Nat) (r : Request)
  /-- WITHDRAW: WITHDRAW of class PLATEAU; the key is the slot (R99). -/
  | withdraw (after : Nat) (r : Request)
  /-- RETIRE_PLATEAU: RETIRE of class PLATEAU; the key is the slot (R100). -/
  | retirePlateau (after : Nat) (r : Request)
  /-- RETIRE_BAND: RETIRE of class BAND; the key is the id (R72). -/
  | retireBand (after : Nat) (r : Request)
  /-- DECLARE: DECLARE of class BAND: lower, upper, peak (R67). -/
  | declare (after : Nat) (r : Request)
  /-- PIN: PIN of class BAND; the key is the id, the parameter 1 or 0 (R73). -/
  | pin (after : Nat) (r : Request)
  /-- INJECT: INJECT of class QUEUE: one to four pairs of chamber and grams (R132). -/
  | inject (after : Nat) (r : Request)
  /-- START: COMMAND START of class PLAN (R102). -/
  | start (after : Nat) (r : CommandRequest)
  /-- PAUSE: COMMAND PAUSE of class PLAN (R104). -/
  | pause (after : Nat) (r : CommandRequest)
  /-- RESUME: COMMAND RESUME of class PLAN (R104). -/
  | resume (after : Nat) (r : CommandRequest)
  /-- NEXT: COMMAND NEXT of class PLAN; the parameter is the slot (R105). -/
  | next (after : Nat) (r : CommandRequest)
  /-- ABORT: COMMAND ABORT of class PLAN (R106). -/
  | abort (after : Nat) (r : CommandRequest)
  /-- CLEAR: COMMAND CLEAR of class PLAN (R107). -/
  | clear (after : Nat) (r : CommandRequest)
  /-- GUARD: COMMAND GUARD of class STATUS; the parameter is the level (R88). -/
  | guard (after : Nat) (r : CommandRequest)
  /-- FLUSH: COMMAND FLUSH of class QUEUE (R145). -/
  | flush (after : Nat) (r : CommandRequest)
  /-- CANCEL: COMMAND CANCEL of class QUEUE (R146). -/
  | cancel (after : Nat) (r : CommandRequest)
  /-- CLEAR_TRIP: COMMAND CLEAR_TRIP of class STATUS (R158). -/
  | clearTrip (after : Nat) (r : CommandRequest)
  /-- QUIET: COMMAND QUIET of class STATUS; the parameter is n (R174). -/
  | quiet (after : Nat) (r : CommandRequest)
  /-- RESET: COMMAND RESET of class STATUS (R173). -/
  | reset (after : Nat) (r : CommandRequest)
  /-- LOCK: COMMAND LOCK of class CAL (R184). -/
  | lock (after : Nat) (r : CommandRequest)
  /-- CAL_WRITE: CAL_WRITE of class CAL; the key is the item, the parameters 16 words (R181). -/
  | calWrite (after : Nat) (r : Request)
  /-- KEY_VERIFY: KEY_VERIFY of class CAL: four key words (R183). -/
  | keyVerify (after : Nat) (r : Request)
  /-- CHARACTER_RECEIVED: a character ends on a port; `stopBit` is false where its stop bit is missing (R164). -/
  | characterReceived (after : Nat) (port : Port) (byte : Byte) (stopBit : Bool)
  deriving DecidableEq, Repr

end Sys2Proof
end

