-- ==== Sys2Proof/Decode.lean ====
section
/-! DEFINITION. Command words. No row of spec/opcode_table.json gives a command bits (every row's fields are empty and
none has a fixed pattern), so no word spells a command: requests reach the part as frames of bytes, which
Machine/Link.lean takes apart (R164, R188). -/

namespace Sys2Proof

/-- The command that a word of the table's numbering spells: none, since the table gives no row any bits. -/
def decodeTableWord (_nbits _w : Nat) : Option Instr := none

end Sys2Proof
end

