-- ==== Sys2Proof/Config.lean ====
section
/-! DEFINITION. What the part as shipped fixes: the sizes of its collections and its time units, and the one value that the spec
leaves unstated. The other points it leaves open (the order in which blocks take one event, how far a cut-off programming had come)
are operands of the command concerned (log entries 4 and 6). -/

namespace Sys2Proof.Config

/-- Microseconds in a millisecond; every timer of the model counts microseconds. -/
def ms : Nat := 1000

/-- Plateau slots of the spin plan (R92). -/
def plateauSlots : Nat := 8

/-- Slots of the band table (R60). -/
def bandSlots : Nat := 6

/-- Entries of the injection queue (R128). -/
def queueEntries : Nat := 8

/-- Entries of the sag window (R29). -/
def sagEntries : Nat := 8

/-- Angle slots in a revolution (R10). -/
def anglesPerRevolution : Nat := 32

/-- What a word of a numeric field shows of a number too large for the field, words counted from 0, the high one: a free value, on
which nothing rests (R189; log 39). -/
opaque overgrownWord (place number : Nat) : Word

end Sys2Proof.Config
end

