-- ==== Sys2Proof/Machine/Tables.lean ====
section
/-! DEFINITION. The numeric tables of the spec: harmonic and quarter-wave tables, timer lengths, and the calibration items with
their lengths, kinds, ranges and defaults. -/

namespace Sys2Proof.Machine

/-! ### Timer lengths, in µs -/

/-- R1. -/
def powerOnTime : Nat := 10000
/-- R1. -/
def commandResetTime : Nat := 1000
/-- R186. -/
def startUpTime : Nat := 20000
/-- R8. -/
def restTime : Nat := 3000000
/-- R3: edges closer than this to the last taken edge are noise. -/
def noiseInterval : Nat := 20000
/-- R10, R12: 60.0 rpm as a period. -/
def slowestScheduled : Nat := 1000000
/-- R27. -/
def staticTime : Nat := 100000
/-- R27, while the part is QUIET. -/
def quietStaticTime : Nat := 1000000
/-- R56. -/
def giveUpTime : Nat := 30000000
/-- R56. -/
def discardTime : Nat := 2000000
/-- R118. -/
def dwellTime : Nat := 100000
/-- R126. -/
def bleedTime : Nat := 100000
/-- R127. -/
def unknownTime : Nat := 30000000
/-- R151, R160. -/
def debounceTime : Nat := 10000
/-- R174: the quiet countdown counts n of these. -/
def quietUnit : Nat := 100000
/-- R177. -/
def wakeTime : Nat := 50000

/-! ### Harmonic and quarter-wave tables -/

/-- CT[k] of Table 2-3, for k = 0 to 31. -/
def cosTable : List Int :=
  [1024, 1004, 946, 851, 724, 569, 392, 200, 0, -200, -392, -569, -724, -851, -946, -1004] ++
  [-1024, -1004, -946, -851, -724, -569, -392, -200, 0, 200, 392, 569, 724, 851, 946, 1004]

def ct (k : Nat) : Int := cosTable.getD (k % 32) 0

/-- ST[k] = CT[(k − 8) mod 32] (Table 2-3, note 2). -/
def st (k : Nat) : Int := ct (k + 24)

/-- QT[i] = round(1024 sin(iπ/128)) for i = 0 to 64 (R135). -/
def quarterWave : List Nat :=
  [0, 25, 50, 75, 100, 125, 150, 175, 200, 224, 249, 273, 297, 321, 345, 369] ++
  [392, 415, 438, 460, 483, 505, 526, 548, 569, 590, 610, 630, 650, 669, 688, 706] ++
  [724, 742, 759, 775, 792, 807, 822, 837, 851, 865, 878, 891, 903, 915, 926, 936] ++
  [946, 955, 964, 972, 980, 987, 993, 999, 1004, 1009, 1013, 1016, 1019, 1021, 1023, 1024] ++ [1024]

def qt (i : Nat) : Nat := quarterWave.getD i 0

/-- floor(2^64 × tan((2k + 1)π/256)), k = 0 to 31: the directions at which the rounded angle of R22 changes, in the
first eighth of the circle. DEDUCED (log 29): no vector with coordinates below 2^24 falls on the wrong side of one. -/
def tanTable : List Nat :=
  [226386972670087609, 679433816488466393, 1133300672894845279, 1588538620988222493] ++
  [2045705393518674351, 2505368134395682751, 2968106254290693837, 3434514415346700351] ++
  [3905205678359102561, 4380814848796022011, 4862002061768454333, 5349456650650334224] ++
  [5843901349622859515, 6346096887147232470, 6856847035467697681, 7377004190975902013] ++
  [7907475571955297071, 8449230134277308656, 9003306322546374698, 9570820794622830549] ++
  [10152978282186990947, 10751082780047985006, 11366550293517407350, 12000923417977218679] ++
  [12655888079841227758, 13333292836099156826, 14035171213981748109, 14763767677471990324] ++
  [15521567939276648491, 16311334503199807412, 17136148532902656013, 17999459412546457518]

/-! ### Calibration items -/

/-- One row of Table 10-2 or 10-3. -/
structure ItemSpec where
  num : Nat
  fixed : Bool
  words : Nat
  default : List Word
  deriving DecidableEq, Repr

/-- A word of an erased item (Table 10-2, note 1). -/
def blankWord : Word := 0xFFFF#16

def blankWords (n : Nat) : List Word := List.replicate n blankWord

def oneWord (num : Nat) (fixed : Bool) (value : Nat) : ItemSpec := ⟨num, fixed, 1, [BitVec.ofNat 16 value]⟩

/-- The default of item 38 for an Sdist in force (Table 10-3, note 3). -/
def defaultBand (sdist : Nat) : List Word :=
  [BitVec.ofNat 16 (sdist + 30), BitVec.ofNat 16 (sdist + 330), 9999#16]

/-- Tables 10-2 and 10-3. Item 38's default is formed at the load; item 6 has none, shown as blank words. -/
def itemSpecs : List ItemSpec :=
  [oneWord 1 true 1, oneWord 2 true 400, oneWord 3 true 400, oneWord 4 true 0, oneWord 5 true 0,
   ⟨6, true, 4, blankWords 4⟩] ++
  [oneWord 10 false 8000, oneWord 11 false 4000, oneWord 12 false 3000, oneWord 13 false 8000,
   oneWord 14 false 60, oneWord 15 false 150, oneWord 16 false 200, oneWord 17 false 400,
   oneWord 18 false 100, oneWord 19 false 40, oneWord 20 false 150, oneWord 21 false 1000,
   oneWord 22 false 200] ++
  [oneWord 23 false 512, oneWord 24 false 512, oneWord 25 false 512, oneWord 26 false 512,
   ⟨27, false, 3, [3000#16, 7000#16, 12000#16]⟩, oneWord 28 false 1] ++
  [30, 31, 32, 33].map (fun n => ⟨n, false, 16, List.replicate 16 3000#16⟩) ++
  [34, 35, 36, 37].map (fun n => ⟨n, false, 16, List.replicate 16 0#16⟩) ++
  [⟨38, false, 3, defaultBand 60⟩, ⟨39, false, 3, blankWords 3⟩]

def specOf (n : Nat) : Option ItemSpec := itemSpecs.find? (fun i => i.num = n)

def isBlank (ws : List Word) : Bool := ws.all (fun w => w = blankWord)

def between (lo hi n : Nat) : Bool := lo ≤ n && n ≤ hi

/-- The range of each single-word item as absolute bounds. The bounds of items 16 and 17 against their neighbours are the
cross checks of R180 (log 20). -/
def wordRange (n : Nat) : Nat × Nat :=
  match n with
  | 1 => (1, 14)
  | 2 => (400, 1200)
  | 3 => (200, 1500)
  | 4 => (0, 255)
  | 5 => (0, 1)
  | 10 => (5000, 40000)
  | 11 => (1000, 30000)
  | 12 => (1000, 20000)
  | 13 => (2000, 25000)
  | 14 => (60, 150)
  | 15 => (100, 300)
  | 16 => (0, 800)
  | 17 => (0, 800)
  | 18 => (20, 400)
  | 19 => (5, 200)
  | 20 => (50, 1000)
  | 21 => (100, 2000)
  | 22 => (1, 2000)
  | 28 => (0, 1)
  | _ => (256, 768)

/-- A band item's three words without the test against Sdist (R64, Table 10-3). -/
def bandWordsFit (ws : List Word) : Bool :=
  match ws with
  | [l, u, p] => l.toNat < u.toNat && u.toNat ≤ 1200 && between 1 9999 p.toNat
  | _ => false

/-- Whether words lie within an item's range (Tables 10-2 and 10-3). -/
def inRange (n : Nat) (ws : List Word) : Bool :=
  if n = 6 then ws.all (fun w => w ≠ 0#16 && w ≠ blankWord)
  else if n = 27 then
    match ws.map BitVec.toNat with
    | [a, b, c] => 1 ≤ a && a < b && b < c && c ≤ 30000
    | _ => false
  else if 30 ≤ n && n ≤ 33 then ws.all (fun w => between 1 9999 w.toNat)
  else if 34 ≤ n && n ≤ 37 then ws.all (fun w => w.toNat ≤ 255)
  else if n = 38 then bandWordsFit ws
  else if n = 39 then isBlank ws || bandWordsFit ws
  else ws.all (fun w => between (wordRange n).1 (wordRange n).2 w.toNat)

end Sys2Proof.Machine
end

