-- ==== Sys2Proof/Machine/State.lean ====
section
/-! DEFINITION. The whole state of the 7240, block by block (Table 3-9), as plain data, and its value after reset.
A timer is the `time` at which it runs out, `none` while it is stopped. -/

namespace Sys2Proof.Machine

/-- The spec stops the part nowhere: every event and request has an effect or an answer, so there is no fault. -/
inductive Fault where
  deriving DecidableEq, Repr

/-- Raised by no arm of `exec`. -/
inductive Refusal where
  /-- A command that has no meaning yet, by its mnemonic; raised by a refused arm of `exec` alone, and safe. -/
  | notModelled (mnemonic : String)
  deriving DecidableEq, Repr

/-! ### Rotation Timebase (Table 1-1) -/

inductive SpeedState where
  | stopped
  | turning
  deriving DecidableEq, Repr

/-- Verdicts of a revolution completion, in the order of Table 11-5. -/
inductive Verdict where
  | first
  | unscheduled
  | short
  | unsteady
  | accepted
  deriving DecidableEq, Repr

inductive Revolution where
  | none
  | unscheduled
  /-- Scheduled, with the number of the next slot, 0 to 32. -/
  | scheduled (next : Nat)
  deriving DecidableEq, Repr

structure Rtb where
  lastIndex : Option Nat
  runEdges : Nat
  p : Option Nat
  pPrev : Option Nat
  measured : Nat
  speedState : SpeedState
  atRest : Bool
  restTimer : Option Nat
  revolution : Revolution
  overdue : Option Nat
  lastCompletion : Option Verdict
  deriving DecidableEq, Repr

/-! ### Corner Sampler (Table 2-2) -/

inductive Channel where
  | ok
  | fault
  deriving DecidableEq, Repr

inductive Regime where
  | none
  | rev
  | static
  deriving DecidableEq, Repr

structure Streak where
  regime : Regime
  length : Nat
  deriving DecidableEq, Repr

structure Corner where
  channel : Channel
  streak : Streak
  iSum : Int
  qSum : Int
  clipped : Nat
  outOfWindow : Nat
  deriving DecidableEq, Repr

structure Csm where
  corners : Four Corner
  conversions : Nat
  staticTimer : Option Nat
  window : List (Four Code)
  meanSag : Option Int
  loadMass : Option Nat
  quietRef : Option Int
  deriving DecidableEq, Repr

/-- A vector in µm (R21, R40). -/
structure Vec where
  x : Int
  y : Int
  deriving DecidableEq, Repr

/-! ### Imbalance Estimator (Table 3-1) -/

inductive EstState where
  | idle
  | valid
  | invalid
  deriving DecidableEq, Repr

inductive SnapshotResult where
  | met
  | gaveUp
  deriving DecidableEq, Repr

/-- The estimate record (R54). -/
structure EstimateRecord where
  est : EstState
  settled : Bool
  ringSettled : Bool
  degraded : Bool
  settle : Nat
  speed : Option Nat
  orbit : Option Nat
  uRev : Option Nat
  smooth : Option Nat
  uS : Option Nat
  angle : Option Nat
  uLast : Option Nat
  uEval : Nat
  tableClass : Fin 4
  deriving DecidableEq, Repr

/-- The two keys of a delayed lookup (R54). -/
inductive DelayedKey where
  | settled
  | ringSettled
  deriving DecidableEq, Repr

inductive Latch where
  | free
  | waiting (key : DelayedKey) (port : Port) (giveUp : Nat)
  | ready (key : DelayedKey) (port : Port) (snapshot : EstimateRecord) (result : SnapshotResult) (discard : Nat)
  deriving DecidableEq, Repr

structure Ibe where
  /-- The declared class; `none` is source AUTO (R34, R35). -/
  declared : Option (Fin 4)
  latched : Option (Fin 4)
  sagAbsent : Bool
  restartPending : Bool
  est : EstState
  orbit : Option Vec
  smooth : Option Vec
  restartSpeed : Option Nat
  countedSpeed : Option Nat
  settle : Nat
  injectionMark : Bool
  uRev : Option Nat
  uS : Option Nat
  angle : Option Nat
  uLast : Option Nat
  ringQuiet : Nat
  latch : Latch
  deriving DecidableEq, Repr

/-! ### Resonance Band Table (Tables 4-1 and 4-2) -/

/-- Origins in the order of Table 11-5. -/
inductive Origin where
  | calibrated
  | declared
  | learned
  deriving DecidableEq, Repr

structure Band where
  id : Nat
  lower : Nat
  upper : Nat
  peak : Nat
  origin : Origin
  hits : Nat
  pinned : Bool
  adjusted : Bool
  deriving DecidableEq, Repr

structure Span where
  count : Nat
  low : Nat
  high : Nat
  peak : Nat
  deriving DecidableEq, Repr

structure Rbt where
  /-- The active bands, ids rising; a slot number with no band here is FREE. -/
  bands : List Band
  span : Option Span
  deriving DecidableEq, Repr

/-! ### Spin Plan Manager (Tables 5-1, 6-5, 6-6) -/

inductive PauseReason where
  | partner
  | rebalance
  | lid
  | trip
  deriving DecidableEq, Repr

inductive PlanState where
  | empty
  | loaded
  | running
  | paused (reason : PauseReason)
  | complete
  | aborted
  deriving DecidableEq, Repr

inductive Phase where
  | ramping
  | dwelling
  | held
  deriving DecidableEq, Repr

inductive EndCause where
  | expired
  | next
  | withdrawn
  | aborted
  deriving DecidableEq, Repr

inductive PlateauState where
  | queued
  | active (phase : Phase)
  | done (cause : EndCause)
  | skipped (cause : EndCause)
  deriving DecidableEq, Repr

structure Plateau where
  slot : Nat
  requested : Nat
  target : Nat
  dwell : Nat
  floor : Option Nat
  autoBalance : Bool
  state : PlateauState
  elapsed : Option Nat
  clamped : Bool
  derated : Bool
  bandAdjusted : Bool
  deriving DecidableEq, Repr

inductive CeilingTerm where
  | force
  | band
  | smax
  | degraded
  | test
  | floor
  deriving DecidableEq, Repr

structure Ceiling where
  value : Nat
  term : CeilingTerm
  limiting : Option Nat
  deriving DecidableEq, Repr

inductive GuardLevel where
  | normal
  | tight
  | test
  deriving DecidableEq, Repr

inductive RampClass where
  | normal
  | fast
  | brake
  deriving DecidableEq, Repr

/-- Grant reasons in the order of Table 11-5. -/
inductive Reason where
  | none
  | trip
  | lid
  | restart
  | quiet
  | paused
  | rebalance
  | degraded
  | steady
  | band
  | ceiling
  | clamped
  | planEnd
  deriving DecidableEq, Repr

/-- The grant record (R122). -/
structure GrantRecord where
  speed : Nat
  ramp : RampClass
  ceiling : Ceiling
  slot : Option Nat
  reason : Reason
  deriving DecidableEq, Repr

/-- What SPM takes from an estimate update (R51, R77): U_eval, the DEGRADED mark, and whether the estimate is SETTLED. -/
structure EstimateUpdate where
  u : Nat
  degraded : Bool
  settled : Bool
  deriving DecidableEq, Repr

structure Spm where
  plan : PlanState
  /-- The plateau records in position order; each names its slot, and a slot named by none is FREE. -/
  plateaus : List Plateau
  ceiling : Ceiling
  guard : GuardLevel
  /-- The most recent estimate update that SPM has taken (R77). -/
  update : EstimateUpdate
  grant : GrantRecord
  derived : Option Nat
  rejecting : Bool
  bandMoved : Bool
  arrival : Nat
  inWindow : Bool
  dwellTimer : Option Nat
  restartHold : Bool
  deriving DecidableEq, Repr

/-! ### Ring Injection Controller (Tables 7-2, 7-3, 7-5) -/

inductive OrderOrigin where
  | auto
  | partner
  deriving DecidableEq, Repr

inductive OrderState where
  | waiting
  | serving
  deriving DecidableEq, Repr

structure Order where
  chamber : Fin 4
  /-- Grams requested. -/
  requested : Nat
  /-- mg delivered. -/
  delivered : Nat
  origin : OrderOrigin
  state : OrderState
  clamped : Bool
  deriving DecidableEq, Repr

/-- A chamber window of the revolution in progress whose open instant has not come (R137). -/
structure Window where
  chamber : Fin 4
  opens : Nat
  starts : Nat
  length : Nat
  /-- D, the full delivery in mg. -/
  full : Nat
  deriving DecidableEq, Repr

inductive OpeningKind where
  | full
  | early
  deriving DecidableEq, Repr

/-- The valve opening in progress (R139); it closes `duration` µs after `opens`. -/
structure Opening where
  chamber : Fin 4
  opens : Nat
  duration : Nat
  kind : OpeningKind
  credit : Nat
  flow : Nat
  deriving DecidableEq, Repr

structure Ric where
  /-- The contents of chambers 0 to 3 in mg; `none` while the four are UNKNOWN (R127). -/
  contents : Option (Four Nat)
  queue : List Order
  flush : Bool
  frozen : Bool
  bound : Nat
  windows : List Window
  opening : Option Opening
  bleedTimer : Option Nat
  unknownTimer : Option Nat
  deriving DecidableEq, Repr

/-! ### Trip Monitor (Table 8-1) -/

/-- Trip causes in the order of Table 11-5. -/
inductive Cause where
  | orbit
  | strike
  | tachLost
  | sensors
  | overspeed
  deriving DecidableEq, Repr

structure CauseSet where
  orbit : Bool
  strike : Bool
  tachLost : Bool
  sensors : Bool
  overspeed : Bool
  deriving DecidableEq, Repr

structure Tmo where
  /-- The cause that set the latch; the latch is set exactly while it is present (Table 8-1, note 1). -/
  first : Option Cause
  causes : CauseSet
  overspeed : Nat
  /-- `true` is ASSERTED. -/
  strike : Bool
  strikeTimer : Option Nat
  /-- `true` is LOCKED. -/
  lid : Bool
  lidTimer : Option Nat
  deriving DecidableEq, Repr

/-! ### Link Ports (Table 9-1) -/

inductive PartState where
  | starting
  | run
  | quietPending
  | quiet
  | waking
  deriving DecidableEq, Repr

/-- Notice kinds in the order of their bits (Table 11-5, note 2). -/
inductive Notice where
  | planState
  | plateauEnd
  | rebalance
  | trip
  | lid
  | ringExhausted
  | bandLearned
  | bandOverflow
  | lookupReady
  | lookupDiscarded
  | calFault
  | wake
  | restart
  deriving DecidableEq, Repr

structure NoticeSet where
  planState : Bool
  plateauEnd : Bool
  rebalance : Bool
  trip : Bool
  lid : Bool
  ringExhausted : Bool
  bandLearned : Bool
  bandOverflow : Bool
  lookupReady : Bool
  lookupDiscarded : Bool
  calFault : Bool
  wake : Bool
  restart : Bool
  deriving DecidableEq, Repr

/-- Outcomes in the order of Table 11-3. -/
inductive Outcome where
  | done
  | adjusted
  | pending
  | busy
  | access
  | range
  | protect
  | full
  | absent
  deriving DecidableEq, Repr

/-- The outcome and record words of an answer frame (Table 11-2). -/
structure Answer where
  outcome : Outcome
  words : List Word
  deriving DecidableEq, Repr

/-- The bytes of a request that its answer repeats (R188). -/
structure Caller where
  addr : Byte
  kind : Byte
  cls : Byte
  deriving DecidableEq, Repr

structure InProgress where
  caller : Caller
  /-- The answer being sent; `none` while CAL_WRITE waits for its programming (R181). -/
  answer : Option Answer
  /-- A command reset follows the answer (R173). -/
  resetAfter : Bool
  deriving DecidableEq, Repr

/-- A port's receive frame (R164). -/
structure Rx where
  bytes : List Byte
  /-- When the last character ended. -/
  lastEnd : Nat
  /-- A frame was dropped at its header; characters are ignored until a gap. -/
  skipping : Bool
  deriving DecidableEq, Repr

structure PortState where
  rx : Rx
  inProgress : Option InProgress
  waiting : Option Caller
  deriving DecidableEq, Repr

structure Lkp where
  cycle : PortState
  drive : PortState
  image : GrantRecord
  driveAtn : Bool
  notices : NoticeSet
  part : PartState
  quietTimer : Option Nat
  wakeTimer : Option Nat
  deriving DecidableEq, Repr

/-! ### Calibration Store (Table 10-1) -/

inductive Source where
  | stored
  | blank
  | fault
  deriving DecidableEq, Repr

structure Item where
  num : Nat
  /-- The non-volatile words. -/
  stored : List Word
  /-- Whether the non-volatile check code matches them. -/
  checkOk : Bool
  source : Source
  /-- The words its source gives; in force unless DEFAULTED overrides them (R179). -/
  held : List Word
  deriving DecidableEq, Repr

structure Programming where
  item : Nat
  words : List Word
  deriving DecidableEq, Repr

structure Cls where
  items : List Item
  unlocked : Bool
  lockout : Bool
  programming : Option Programming
  deriving DecidableEq, Repr

/-! ### The part -/

/-- The resets in force (R1): a timed one (power-on or command) until its instant, and RESET_N while asserted. -/
structure ResetControl where
  timer : Option Nat
  resetN : Bool
  deriving DecidableEq, Repr

structure State where
  /-- µs since the last reset began or ended (log 1). -/
  time : Nat
  rst : ResetControl
  startUp : Option Nat
  strikePin : Bool
  lidPin : Bool
  rtb : Rtb
  csm : Csm
  ibe : Ibe
  rbt : Rbt
  spm : Spm
  ric : Ric
  tmo : Tmo
  lkp : Lkp
  cls : Cls
  pending : List Instr
  deriving DecidableEq, Repr

/-! ### Values after reset -/

/-- Table 1-6, with the rest timer not yet started. -/
def Rtb.held : Rtb :=
  { lastIndex := none, runEdges := 0, p := none, pPrev := none, measured := 0, speedState := .stopped,
    atRest := false, restTimer := none, revolution := .none, overdue := none, lastCompletion := none }

def Corner.cleared : Corner :=
  { channel := .ok, streak := ⟨.none, 0⟩, iSum := 0, qSum := 0, clipped := 0, outOfWindow := 0 }

/-- Table 2-7. -/
def Csm.held : Csm :=
  { corners := Four.all Corner.cleared, conversions := 0, staticTimer := none, window := [], meanSag := none,
    loadMass := none, quietRef := none }

/-- Table 3-6. -/
def Ibe.held : Ibe :=
  { declared := none, latched := none, sagAbsent := false, restartPending := false, est := .idle, orbit := none,
    smooth := none, restartSpeed := none, countedSpeed := none, settle := 0, injectionMark := false, uRev := none,
    uS := none, angle := none, uLast := none, ringQuiet := 0, latch := .free }

/-- R76, before the load. -/
def Rbt.held : Rbt := { bands := [], span := none }

/-- Table 6-12, for a ceiling, a guard level and an estimate update. -/
def Spm.held (c : Ceiling) (g : GuardLevel) (u : EstimateUpdate) : Spm :=
  { plan := .empty, plateaus := [], ceiling := c, guard := g, update := u, grant := ⟨0, .brake, c, none, .restart⟩,
    derived := none, rejecting := false, bandMoved := false, arrival := 0, inWindow := false, dwellTimer := none,
    restartHold := true }

/-- Table 7-10, with the bleed and unknown timers not yet started. -/
def Ric.held : Ric :=
  { contents := none, queue := [], flush := false, frozen := true, bound := 0, windows := [], opening := none,
    bleedTimer := none, unknownTimer := none }

def CauseSet.none : CauseSet := ⟨false, false, false, false, false⟩

/-- Table 8-3. -/
def Tmo.held : Tmo :=
  { first := none, causes := CauseSet.none, overspeed := 0, strike := false, strikeTimer := none, lid := false,
    lidTimer := none }

def NoticeSet.empty : NoticeSet :=
  ⟨false, false, false, false, false, false, false, false, false, false, false, false, false⟩

def Rx.empty : Rx := { bytes := [], lastEnd := 0, skipping := false }

def PortState.idle : PortState := { rx := Rx.empty, inProgress := none, waiting := none }

/-- Table 9-7, for a grant record. -/
def Lkp.held (g : GrantRecord) : Lkp :=
  { cycle := PortState.idle, drive := PortState.idle, image := g, driveAtn := true, notices := NoticeSet.empty,
    part := .starting, quietTimer := none, wakeTimer := none }

/-- A new part's item: every word blank (Table 10-5), so a FIXED item and item 39 load as BLANK, the others as FAULT. -/
def Item.new (i : ItemSpec) : Item :=
  { num := i.num, stored := blankWords i.words, checkOk := false,
    source := if i.fixed || i.num = 39 then .blank else .fault, held := i.default }

/-- The store of a new part after its first load (Table 10-5, step 1). -/
def Cls.new : Cls := { items := itemSpecs.map Item.new, unlocked := false, lockout := false, programming := none }

/-- The ceiling of a part with a DEFAULTED store (Table 5-6). -/
def defaultedCeiling : Ceiling := ⟨70, .band, some 0⟩

/-- The machine right after reset: a new part at the end of its power-on reset, the load of R185 taken, start-up running
(log 2). -/
def State.reset : State :=
  { time := 0
    rst := ⟨none, false⟩
    startUp := some startUpTime
    strikePin := false
    lidPin := false
    rtb := { Rtb.held with restTimer := some restTime }
    csm := Csm.held
    ibe := Ibe.held
    rbt := { Rbt.held with bands := [⟨0, 90, 390, 9999, .calibrated, 0, false, false⟩] }
    spm := Spm.held defaultedCeiling .tight ⟨1000, false, false⟩
    ric := { Ric.held with bleedTimer := some bleedTime, unknownTimer := some unknownTime }
    tmo := Tmo.held
    lkp :=
      { Lkp.held ⟨0, .brake, defaultedCeiling, none, .restart⟩ with
        notices := { NoticeSet.empty with calFault := true } }
    cls := Cls.new
    pending := [] }

end Sys2Proof.Machine
end

