-- ==== Sys2Proof/Machine/Arith.lean ====
section
/-! DEFINITION. The arithmetic of section 6.3 of the scope file: rounding, square roots by comparison, vector magnitude and
angle, table interpolation, differences on the capture timer. -/

namespace Sys2Proof.Machine

/-- "Rounded": n / d to the nearest integer, halves away from zero (Table 6-2). -/
def roundDiv (n : Int) (d : Nat) : Int :=
  if 0 ≤ n then (2 * n + d) / (2 * d) else -((2 * (-n) + d) / (2 * d))

/-- The difference of two capture timer values, mod 2^24 (R2). -/
def sub24 (a b : Nat) : Nat := (a % 2 ^ 24 + 2 ^ 24 - b % 2 ^ 24) % 2 ^ 24

/-- The bits of a square root from the highest down, each kept where the square still fits. -/
def isqrtLoop (n : Nat) : Nat → Nat → Nat
  | 0, r => r
  | b + 1, r => if (r + 2 ^ b) * (r + 2 ^ b) ≤ n then isqrtLoop n b (r + 2 ^ b) else isqrtLoop n b r

/-- The largest r with r × r ≤ n. -/
def isqrt (n : Nat) : Nat := isqrtLoop n (n.log2 / 2 + 1) 0

/-- The magnitude of R22: floor(√(X² + Y²) + 0.5), without a square root of fractions. -/
def magnitude (v : Vec) : Nat :=
  (isqrt (4 * (v.x.natAbs * v.x.natAbs + v.y.natAbs * v.y.natAbs)) + 1) / 2

/-- The rounded angle in au of a direction in the first eighth of the circle, 0 ≤ y ≤ x. -/
def octantAngle (x y : Nat) : Nat := tanTable.countP (fun t => x * t < y * 2 ^ 64)

/-- The rounded angle in au, 0 to 64, of a direction in the first quarter. -/
def quadrantAngle (x y : Nat) : Nat := if y ≤ x then octantAngle x y else 64 - octantAngle y x

/-- The angle of R22, in au. -/
def angleOf (v : Vec) : Nat :=
  let x := v.x.natAbs
  let y := v.y.natAbs
  if v.x = 0 ∧ v.y = 0 then 0
  else if 0 < v.x ∧ 0 ≤ v.y then quadrantAngle x y % 256
  else if v.x ≤ 0 ∧ 0 < v.y then (64 + quadrantAngle y x) % 256
  else if v.x < 0 ∧ v.y ≤ 0 then (128 + quadrantAngle x y) % 256
  else (192 + quadrantAngle y x) % 256

def wordAt (t : List Word) (i : Nat) : Nat := (t.getD i 0#16).toNat

/-- G(s) of R37 from a receptance table. -/
def interpolateReceptance (t : List Word) (s : Nat) : Nat :=
  if 1200 ≤ s then wordAt t 15
  else
    let b := s / 80
    let lo : Int := wordAt t b
    let hi : Int := wordAt t (b + 1)
    (lo + ((hi - lo) * (s - 80 * b : Nat)).tdiv 80).toNat

/-- L(s) of R38 from a lag table. -/
def interpolateLag (t : List Word) (s : Nat) : Nat :=
  if 1200 ≤ s then wordAt t 15
  else
    let b := s / 80
    let lo : Int := wordAt t b
    let hi : Int := wordAt t (b + 1)
    let d : Int := (hi - lo + 128) % 256 - 128
    ((lo + (d * (s - 80 * b : Nat)).tdiv 80) % 256).toNat

/-- Grams from an orbit magnitude and a receptance, saturating at 9999 (R43). -/
def orbitGrams (magnitude receptance : Nat) : Nat :=
  min 9999 ((magnitude * 100 + receptance / 2) / receptance)

/-- The largest n from `top` down to 0 that passes; 0 if none does. -/
def largestPassing (p : Nat → Bool) : Nat → Nat
  | 0 => 0
  | n + 1 => if p (n + 1) then n + 1 else largestPassing p n

/-- Two speeds within a distance of each other, inclusive. -/
def within (d a b : Nat) : Bool := a ≤ b + d && b ≤ a + d

end Sys2Proof.Machine
end

