-- ==== Sys2Proof/Machine/Ops.lean ====
section
/-! DEFINITION. The named operations every block uses: time, events and timers, notices, cause sets, and the calibration
values in force. -/

namespace Sys2Proof.Machine

/-! ### Time and events -/

/-- A reset is in force (R1). -/
def State.inReset (s : State) : Bool := s.rst.timer.isSome || s.rst.resetN

/-- The capture timer: 24 bits, 1 µs, held at 0 while a reset is in force (R2). -/
def State.capture (s : State) : Nat := if s.inReset then 0 else s.time % 2 ^ 24

def State.elapse (n : Nat) (s : State) : State := { s with time := s.time + n }

/-- µs until a capture timer instant; 0 where it is now or has passed (log 1). -/
def State.ahead (t : Nat) (s : State) : Nat :=
  if sub24 t s.capture < 2 ^ 23 then sub24 t s.capture else 0

/-- Time runs on to a capture timer instant. -/
def State.atInstant (t : Nat) (s : State) : State := s.elapse (s.ahead t)

/-- An event from outside, `after` µs after the command before it. While a reset is in force the blocks take no event
(R16, R33, R163; log 10). -/
def fromOutside (after : Nat) (f : State → State) (s : State) : Host.Outcome State Fault Refusal :=
  .next (if s.inReset then s.elapse after else f (s.elapse after))

/-- A timer's running out: at its instant, and not at all while it is stopped or a reset is in force (log 1, log 3). -/
def onExpiry (timer : Option Nat) (f : State → State) (s : State) : Host.Outcome State Fault Refusal :=
  match timer with
  | none => .next s
  | some t => .next (if s.inReset then s else f { s with time := max s.time t })

/-- A timer started now. -/
def State.timerFor (n : Nat) (s : State) : Option Nat := some (s.time + n)

/-! ### Notices (R171) and causes (R155) -/

def NoticeSet.has (n : Notice) (v : NoticeSet) : Bool :=
  match n with
  | .planState => v.planState
  | .plateauEnd => v.plateauEnd
  | .rebalance => v.rebalance
  | .trip => v.trip
  | .lid => v.lid
  | .ringExhausted => v.ringExhausted
  | .bandLearned => v.bandLearned
  | .bandOverflow => v.bandOverflow
  | .lookupReady => v.lookupReady
  | .lookupDiscarded => v.lookupDiscarded
  | .calFault => v.calFault
  | .wake => v.wake
  | .restart => v.restart

def NoticeSet.add (n : Notice) (v : NoticeSet) : NoticeSet :=
  match n with
  | .planState => { v with planState := true }
  | .plateauEnd => { v with plateauEnd := true }
  | .rebalance => { v with rebalance := true }
  | .trip => { v with trip := true }
  | .lid => { v with lid := true }
  | .ringExhausted => { v with ringExhausted := true }
  | .bandLearned => { v with bandLearned := true }
  | .bandOverflow => { v with bandOverflow := true }
  | .lookupReady => { v with lookupReady := true }
  | .lookupDiscarded => { v with lookupDiscarded := true }
  | .calFault => { v with calFault := true }
  | .wake => { v with wake := true }
  | .restart => { v with restart := true }

/-- Every notice kind, by bit (Table 11-5, note 2). -/
def allNotices : List Notice :=
  [.planState, .plateauEnd, .rebalance, .trip, .lid, .ringExhausted, .bandLearned, .bandOverflow, .lookupReady,
   .lookupDiscarded, .calFault, .wake, .restart]

/-- Post a notice (R171). -/
def State.post (n : Notice) (s : State) : State :=
  { s with lkp := { s.lkp with notices := s.lkp.notices.add n } }

def CauseSet.has (c : Cause) (v : CauseSet) : Bool :=
  match c with
  | .orbit => v.orbit
  | .strike => v.strike
  | .tachLost => v.tachLost
  | .sensors => v.sensors
  | .overspeed => v.overspeed

def CauseSet.add (c : Cause) (v : CauseSet) : CauseSet :=
  match c with
  | .orbit => { v with orbit := true }
  | .strike => { v with strike := true }
  | .tachLost => { v with tachLost := true }
  | .sensors => { v with sensors := true }
  | .overspeed => { v with overspeed := true }

def allCauses : List Cause := [.orbit, .strike, .tachLost, .sensors, .overspeed]

/-! ### Calibration values in force (R179) -/

/-- The store is DEFAULTED while an item has source FAULT (R179). -/
def Cls.defaulted (c : Cls) : Bool := c.items.any (fun i => i.source = .fault)

def Cls.item (c : Cls) (n : Nat) : Option Item := c.items.find? (fun i => i.num = n)

/-- Smax, Kf, Lcross and Sdist stand at their defaults while the store is DEFAULTED (R179). -/
def overridden (n : Nat) : Bool := n = 2 || n = 10 || n = 11 || n = 14

def defaultOf (n : Nat) : List Word :=
  match specOf n with
  | some i => i.default
  | none => []

/-- The words in force of an item (R179). -/
def Cls.inForce (c : Cls) (n : Nat) : List Word :=
  if overridden n && c.defaulted then defaultOf n
  else
    match c.item n with
    | some i => i.held
    | none => []

/-- The value in force of a single-word item. -/
def Cls.value (c : Cls) (n : Nat) : Nat := wordAt (c.inForce n) 0

def State.smax (s : State) : Nat := s.cls.value 2
def State.capacity (s : State) : Nat := s.cls.value 3
def State.nozzle (s : State) : Nat := s.cls.value 4
def State.kf (s : State) : Nat := s.cls.value 10
def State.lcross (s : State) : Nat := s.cls.value 11
def State.lst (s : State) : Nat := s.cls.value 12
def State.ltrip (s : State) : Nat := s.cls.value 13
def State.sdist (s : State) : Nat := s.cls.value 14
def State.shold (s : State) : Nat := s.cls.value 15
def State.sinjLo (s : State) : Nat := s.cls.value 16
def State.sinjHi (s : State) : Nat := s.cls.value 17
def State.flow (s : State) : Nat := s.cls.value 18
def State.bleed (s : State) : Nat := s.cls.value 19
def State.uAuto (s : State) : Nat := s.cls.value 20
def State.uInit (s : State) : Nat := s.cls.value 21
def State.ksag (s : State) : Nat := s.cls.value 22
/-- The rest offsets of corners 1 to 4 (R18). -/
def State.restOffsets (s : State) : Four Nat := ⟨s.cls.value 23, s.cls.value 24, s.cls.value 25, s.cls.value 26⟩
/-- The selected direction of index edges: `true` for rising (R3). -/
def State.risingSelected (s : State) : Bool := s.cls.value 5 = 0
/-- The default guard item (R87): 0 NORMAL, 1 TIGHT. -/
def State.defaultGuard (s : State) : GuardLevel := if s.cls.value 28 = 0 then .normal else .tight

/-! ### What every block reads -/

/-- The speed in whole rpm (R6). -/
def State.rpm (s : State) : Nat := s.rtb.measured / 10

/-- The basket angle in au (R9). -/
def State.basketAngle (s : State) : Option Nat :=
  match s.rtb.speedState, s.rtb.lastIndex, s.rtb.pPrev with
  | .turning, some t, some p => some (min 255 (sub24 s.capture t * 256 / p))
  | _, _, _ => none

/-- The class whose tables are used (R34). -/
def State.tableClass (s : State) : Fin 4 :=
  match s.ibe.declared with
  | some c => c
  | none => s.ibe.latched.getD 2

/-- G(s) for the table class (R37). -/
def State.receptance (s : State) (speed : Nat) : Nat :=
  interpolateReceptance (s.cls.inForce (30 + s.tableClass.val)) speed

/-- L(s) for the table class (R38). -/
def State.lag (s : State) (speed : Nat) : Nat := interpolateLag (s.cls.inForce (34 + s.tableClass.val)) speed

/-- The guard factor g (Table 5-2). -/
def GuardLevel.factor : GuardLevel → Nat
  | .normal => 100
  | .tight => 80
  | .test => 100

def State.guardFactor (s : State) : Nat := s.spm.guard.factor

/-- The plan is RUNNING or PAUSED. -/
def PlanState.underway : PlanState → Bool
  | .running => true
  | .paused _ => true
  | _ => false

end Sys2Proof.Machine
end

