-- ==== Sys2Proof/Machine/Flags.lean ====
section
/-! DEFINITION. Lines, flags and conditions that are computed from State: the output lines, SETTLED, ring-settled, U_eval and
the DEGRADED mark, the freeze condition, chamber states and room. -/

namespace Sys2Proof.Machine

/-- The trip latch is set (Table 8-1, note 1). -/
def State.tripped (s : State) : Bool := s.tmo.first.isSome

/-- The TRIP line (R157). -/
def State.tripLine (s : State) : Bool := s.tripped || s.lkp.part = .starting

/-- The VALVE line (R142). -/
def State.valveLine (s : State) : Bool := s.ric.opening.isSome

/-- The cycle port's attention line (R171). -/
def State.cycAtn (s : State) : Bool := allNotices.any (fun n => s.lkp.notices.has n)

/-- The drive port's attention line (R170). -/
def State.drvAtn (s : State) : Bool := s.lkp.driveAtn

/-- The settle threshold (R45). -/
def GuardLevel.threshold : GuardLevel → Nat
  | .normal => 4
  | .tight => 4
  | .test => 1

/-- SETTLED (R45). -/
def State.settled (s : State) : Bool := s.ibe.est = .valid && s.spm.guard.threshold ≤ s.ibe.settle

/-- The ring-settled condition (R52). -/
def State.ringSettled (s : State) : Bool := s.settled && s.ibe.ringQuiet = 4 && s.ric.queue.isEmpty

/-- U_last, or U_init in its place (R50). -/
def State.uLastOrInit (s : State) : Nat := s.ibe.uLast.getD s.uInit

/-- The evaluation imbalance (R50, Table 3-4). -/
def State.uEval (s : State) : Nat :=
  match s.ibe.est with
  | .valid => if s.settled then s.ibe.uS.getD 0 else max (s.ibe.uS.getD 0) s.uLastOrInit
  | .idle => s.uLastOrInit
  | .invalid => s.uLastOrInit

/-- The DEGRADED mark (R50). -/
def State.degraded (s : State) : Bool := s.ibe.est = .invalid

/-- What an estimate update handed now carries to SPM (R51). -/
def State.estimateUpdate (s : State) : EstimateUpdate := ⟨s.uEval, s.degraded, s.settled⟩

/-- The condition of the freeze (R143). -/
def State.freezeCondition (s : State) : Bool :=
  s.rtb.lastCompletion ≠ some .accepted ||
  s.rpm < s.sinjLo || s.sinjHi < s.rpm ||
  s.tripped || !s.tmo.lid ||
  s.spm.plan = .paused .trip || s.spm.plan = .paused .lid ||
  s.lkp.part ≠ .run

/-- An order's grams still owed (Table 7-5). -/
def Order.remaining (o : Order) : Nat := o.requested - o.delivered / 1000

/-- An order's mg still owed (Table 7-5, note 1). -/
def Order.remainingMg (o : Order) : Nat := o.requested * 1000 - o.delivered

/-- The remaining grams of all queued orders for a chamber (R129). -/
def queuedGrams (q : List Order) (j : Fin 4) : Nat :=
  ((q.filter (fun o => o.chamber = j)).map Order.remaining).sum

/-- A chamber's mass in g; absent while UNKNOWN (R124). -/
def Ric.mass (r : Ric) (j : Fin 4) : Option Nat := r.contents.map (fun c => c.get j / 1000)

/-- A chamber's room in g for a capacity (R129). -/
def Ric.room (r : Ric) (capacity : Nat) (j : Fin 4) : Option Nat :=
  (r.mass j).map (fun m => capacity - m - queuedGrams r.queue j)

/-- Chamber states in the order of Table 11-5. -/
inductive ChamberState where
  | empty
  | filling
  | holding
  | draining
  | unknown
  deriving DecidableEq, Repr

/-- A chamber's state (R125, Table 7-4). -/
def State.chamberState (s : State) (j : Fin 4) : ChamberState :=
  match s.ric.mass j with
  | none => .unknown
  | some m =>
    if s.ric.opening.any (fun o => o.chamber = j) then .filling
    else if m = 0 then .empty
    else if s.rpm < s.shold then .draining
    else .holding

end Sys2Proof.Machine
end

