-- ==== Sys2Proof/Machine/Ring.lean ====
section
/-! DEFINITION. The Ring Injection Controller's own operations (chapter 7): credit, opening, freeze, queue, windows, bleed. -/

namespace Sys2Proof.Machine

/-- Two adjacent orders that RIC merges (R128). -/
def Order.merges (a b : Order) : Bool :=
  a.state = .waiting && b.state = .waiting && a.chamber = b.chamber && a.origin = b.origin

/-- The later order of a merging pair goes into the earlier one (R128). -/
def Order.absorb (a b : Order) : Order :=
  { a with requested := a.requested + b.requested, clamped := a.clamped || b.clamped }

/-- An order put in front of a queue, merged with the order that was first where the two merge. -/
def pushMerging (o : Order) (q : List Order) : List Order :=
  match q with
  | [] => [o]
  | b :: rest => if o.merges b then o.absorb b :: rest else o :: b :: rest

/-- The queue with every merging pair merged (R128). -/
def mergeAdjacent (q : List Order) : List Order := q.foldr pushMerging []

/-- The water credited to a chamber, if it is known (R124). -/
def addGrams (contents : Option (Four Nat)) (j : Fin 4) (grams : Nat) : Option (Four Nat) :=
  contents.map (fun c => c.set j (c.get j + 1000 * grams))

/-- The whole grams that `mg` more carry an order across (R130). -/
def Order.gramsCrossed (o : Order) (mg : Nat) : Nat := (o.delivered + mg) / 1000 - o.delivered / 1000

/-- A credit of `mg` to the head order (R130). -/
def State.credit (mg : Nat) (s : State) : State :=
  match s.ric.queue with
  | [] => s
  | o :: rest =>
    let contents := addGrams s.ric.contents o.chamber (o.gramsCrossed mg)
    if o.requested * 1000 ≤ o.delivered + mg then
      { s with ric := { s.ric with
          contents := contents, queue := rest, flush := s.ric.flush && !rest.isEmpty,
          bound := if rest.isEmpty then s.ric.bound else s.capture } }
    else
      { s with ric := { s.ric with
          contents := contents, queue := { o with delivered := o.delivered + mg } :: rest } }

/-- The opening in progress ends before its close instant, with the water delivered so far credited (R144, R146). -/
def State.cutOpening (s : State) : State :=
  match s.ric.opening with
  | none => s
  | some o =>
    State.credit (o.flow * min (sub24 s.capture o.opens) o.duration / 1000)
      { s with ric := { s.ric with opening := none } }

/-- A SERVING head is put back to WAITING (R144). -/
def State.putBack (s : State) : State :=
  match s.ric.queue with
  | [] => s
  | o :: rest =>
    if o.state = .serving then
      { s with ric := { s.ric with queue := pushMerging { o with state := .waiting } rest, bound := s.capture } }
    else s

/-- The frozen flag re-evaluated, with what a change of it does (R143, R144). -/
def State.refreeze (s : State) : State :=
  if s.freezeCondition then
    if s.ric.frozen then s
    else
      let t := s.cutOpening.putBack
      { t with ric := { t.ric with frozen := true } }
  else if s.ric.frozen then { s with ric := { s.ric with frozen := false, bound := s.capture } }
  else s

/-- The work of CANCEL, and of RIC at an ABORT (R146). -/
def State.cancelOrders (s : State) : State :=
  let t := s.cutOpening
  { t with ric := { t.ric with queue := [], flush := false } }

/-- The window of chamber j for a revolution opened at `index` with reference period p, with the full delivery for the flow in
force (R137). -/
def windowOf (nozzle flow index p : Nat) (j : Fin 4) : Window :=
  let opens := (index + (64 * j.val + nozzle + 8) % 256 * p / 256) % 2 ^ 24
  { chamber := j, opens := opens, starts := sub24 opens (8 * p / 256), length := 48 * p / 256,
    full := flow * (48 * p / 256) / 1000 }

/-- The window set of the revolution that a completion opens (R137, R141). -/
def State.newWindows (index p : Nat) (s : State) : State :=
  { s with ric := { s.ric with windows := [0, 1, 2, 3].map (windowOf s.nozzle s.flow index p) } }

def State.dropWindows (s : State) : State := { s with ric := { s.ric with windows := [] } }

/-- The bleed and unknown timers against the speed in force: at a completion, a standstill and a write of Shold
(R126, R127, R148). -/
def State.bleedTimers (s : State) : State :=
  if s.shold ≤ s.rpm then { s with ric := { s.ric with bleedTimer := none, unknownTimer := none } }
  else
    { s with ric := { s.ric with
        bleedTimer := s.ric.bleedTimer.orElse (fun _ => s.timerFor bleedTime)
        unknownTimer :=
          if s.ric.contents.isSome then none else s.ric.unknownTimer.orElse (fun _ => s.timerFor unknownTime) } }

/-- One chamber's loss in a bleed tick, in mg; no residue below a gram stays (R126). -/
def bledContent (bleed content : Nat) : Nat :=
  if (content - bleed * 100) / 1000 = 0 then 0 else content - bleed * 100

/-- A bleed tick (R126). -/
def State.bleedTick (s : State) : State :=
  { s with ric := { s.ric with
      contents := s.ric.contents.map (Four.map (bledContent s.bleed))
      bleedTimer := s.timerFor bleedTime } }

/-- The four UNKNOWN chambers become EMPTY (R127). -/
def State.chambersKnown (s : State) : State :=
  { s with ric := { s.ric with contents := some (Four.all 0), unknownTimer := none } }

/-- A window's start lies later than the service bound (R138). -/
def Window.afterBound (w : Window) (bound : Nat) : Bool :=
  0 < sub24 w.starts bound && sub24 w.starts bound < 8388608

/-- The opening of a window for the head order: an EARLY one's close by the flow in force, a FULL one's credit the D of the window
set, which never exceeds what the order is owed (R137, R139, R140; log 37). -/
def openingFor (flow : Nat) (w : Window) (o : Order) : Opening :=
  let r := o.remainingMg
  if r * 1000 / flow < w.length then ⟨w.chamber, w.opens, r * 1000 / flow, .early, r, flow⟩
  else ⟨w.chamber, w.opens, w.length, .full, min w.full r, flow⟩

/-- The end of an opening at its close instant (R139). -/
def State.closeOpening (o : Opening) (s : State) : State :=
  State.credit o.credit { s with ric := { s.ric with opening := none } }

end Sys2Proof.Machine
end

