-- ==== Sys2Proof/Machine/Estimator.lean ====
section
/-! DEFINITION. The Imbalance Estimator's own operations (chapter 3). -/

namespace Sys2Proof.Machine

/-- The estimate record as it stands (R54). -/
def State.estimateRecord (s : State) : EstimateRecord :=
  { est := s.ibe.est, settled := s.settled, ringSettled := s.ringSettled, degraded := s.degraded,
    settle := s.ibe.settle, speed := s.ibe.countedSpeed, orbit := s.ibe.orbit.map magnitude, uRev := s.ibe.uRev,
    smooth := s.ibe.smooth.map magnitude, uS := s.ibe.uS, angle := s.ibe.angle, uLast := s.ibe.uLast,
    uEval := s.uEval, tableClass := s.tableClass }

/-- The condition a delayed lookup waits for (R55). -/
def State.conditionOf (k : DelayedKey) (s : State) : Bool :=
  match k with
  | .settled => s.settled
  | .ringSettled => s.ringSettled

/-- Post a notice for the holder of the latch, where that is the cycle port (R56, R57, R58). -/
def State.postFor (p : Port) (n : Notice) (s : State) : State :=
  match p with
  | .cycle => s.post n
  | .drive => s

/-- The latch becomes READY with a snapshot taken now (R56). -/
def State.latchReady (k : DelayedKey) (p : Port) (result : SnapshotResult) (s : State) : State :=
  State.postFor p .lookupReady
    { s with ibe := { s.ibe with latch := .ready k p s.estimateRecord result (s.time + discardTime) } }

/-- The test of the waiting lookup at an estimate update or a change of the ring-quiet count (R56). -/
def State.testLatch (s : State) : State :=
  match s.ibe.latch with
  | .waiting k p _ => if s.conditionOf k then s.latchReady k p .met else s
  | .free => s
  | .ready _ _ _ _ _ => s

/-- The latch is freed and its result lost (R57, R58). -/
def State.discardLatch (s : State) : State :=
  match s.ibe.latch with
  | .free => s
  | .waiting _ p _ => State.postFor p .lookupDiscarded { s with ibe := { s.ibe with latch := .free } }
  | .ready _ p _ _ _ => State.postFor p .lookupDiscarded { s with ibe := { s.ibe with latch := .free } }

/-- RIC reports the taking of orders (R52, R133). -/
def State.ordersTaken (s : State) : State :=
  State.testLatch { s with ibe := { s.ibe with ringQuiet := 0 } }

/-! ### The work of one revolution (3.3) -/

/-- What CSM reports of one corner (Table 2-4). -/
structure CornerEntry where
  channel : Channel
  vec : Option Vec
  clipped : Option Nat
  deriving DecidableEq, Repr

/-- A revolution completion with its corner report (R11, R23). It lives within one event and is no state. -/
structure Completion where
  p : Nat
  /-- The revolution speed in whole rpm. -/
  speed : Nat
  verdict : Verdict
  capture : Nat
  report : Four CornerEntry
  /-- ACCEPTED but partial (R23). -/
  unsampled : Bool
  deriving DecidableEq, Repr

def Completion.okCount (c : Completion) : Nat := c.report.toList.countP (fun e => e.channel = .ok)

/-- The completion is counted (R39). -/
def Completion.counted (c : Completion) : Bool :=
  60 ≤ c.speed && c.verdict = .accepted && !c.unsampled

/-- The completion is counted with enough OK corners for a VALID estimate (R40). -/
def Completion.countedValid (c : Completion) : Bool := c.counted && 3 ≤ c.okCount

/-- The orbit vector O: the mean of the reported vectors (R40). -/
def Completion.meanOrbit (c : Completion) : Vec :=
  let vs := c.report.toList.filterMap CornerEntry.vec
  ⟨roundDiv (vs.map Vec.x).sum c.okCount, roundDiv (vs.map Vec.y).sum c.okCount⟩

/-- The restart test (R41). -/
def Ibe.restarts (b : Ibe) (speed : Nat) : Bool :=
  b.est ≠ .valid || b.smooth.isNone || b.restartPending || !within 40 speed (b.restartSpeed.getD 0)

/-- S moved a quarter of the way toward O (R42), or onto it under guard TEST (R47). -/
def smoothStep (guard : GuardLevel) (old o : Vec) : Vec :=
  match guard with
  | .test => o
  | _ => ⟨old.x + roundDiv (o.x - old.x) 4, old.y + roundDiv (o.y - old.y) 4⟩

/-- The settle test of R45. -/
def agrees (uRev uS : Nat) : Bool := within (max (uS / 8) 20) uRev uS

/-- The head order is SERVING. -/
def State.serving (s : State) : Bool := s.ric.queue.any (fun o => o.state = .serving)

/-- Steps 1 to 5 of a counted revolution with three or four OK corners (R40 to R46). -/
def State.validRevolution (c : Completion) (s : State) : State :=
  let o := c.meanOrbit
  let restart := s.ibe.restarts c.speed
  let smooth := if restart then o else smoothStep s.spm.guard (s.ibe.smooth.getD o) o
  let g := s.receptance c.speed
  let uRev := orbitGrams (magnitude o) g
  let uS := orbitGrams (magnitude smooth) g
  let before := if restart then 0 else s.ibe.settle
  let settle :=
    if s.ibe.injectionMark then 0 else if agrees uRev uS then min 255 (before + 1) else 0
  { s with ibe := { s.ibe with
      est := .valid, orbit := some o, smooth := some smooth,
      restartSpeed := if restart then some c.speed else s.ibe.restartSpeed,
      restartPending := if restart then false else s.ibe.restartPending,
      countedSpeed := some c.speed, settle := settle,
      injectionMark := s.ibe.injectionMark && s.serving,
      uRev := some uRev, uS := some uS,
      angle := some ((angleOf smooth + 256 - s.lag c.speed % 256) % 256) } }

/-- U_last at a revolution that ends SETTLED (R49). -/
def State.recordULast (s : State) : State :=
  if s.settled then { s with ibe := { s.ibe with uLast := s.ibe.uS } } else s

/-- The ring-quiet count at a counted VALID revolution (R52). -/
def State.countRingQuiet (s : State) : State :=
  { s with ibe := { s.ibe with ringQuiet := if s.ric.queue.isEmpty then min 4 (s.ibe.ringQuiet + 1) else 0 } }

/-- A counted revolution with fewer than three OK corners (R40). -/
def State.invalidRevolution (c : Completion) (s : State) : State :=
  { s with ibe := { s.ibe with
      est := .invalid, settle := 0, countedSpeed := s.ibe.countedSpeed.map (fun _ => c.speed) } }

/-- The estimate becomes IDLE (R48). -/
def State.idleEstimate (s : State) : State := { s with ibe := { s.ibe with est := .idle, settle := 0 } }

/-- IBE's work on a completion, up to the update it attaches (R39, R51, R56). -/
def State.estimate (c : Completion) (s : State) : State :=
  if c.speed < 60 then s.idleEstimate.testLatch
  else if !c.counted then s.testLatch
  else if 3 ≤ c.okCount then (s.validRevolution c).recordULast.countRingQuiet.testLatch
  else (s.invalidRevolution c).testLatch

/-- The table class or its tables changed (R34, R53). -/
def State.restartSmoothing (s : State) : State :=
  { s with ibe := { s.ibe with restartPending := true, settle := 0 } }

/-- The class for a load mass (R36). -/
def classFor (thresholds : List Word) (mass : Nat) : Fin 4 :=
  if mass < wordAt thresholds 0 then 0
  else if mass < wordAt thresholds 1 then 1
  else if mass < wordAt thresholds 2 then 2
  else 3

/-- IBE's part of the taking of START (R36). -/
def State.estimatorStart (s : State) : State :=
  let base := { s.ibe with uLast := none, restartPending := true, settle := 0 }
  match s.ibe.declared, s.csm.loadMass with
  | some _, _ => { s with ibe := { base with sagAbsent := false } }
  | none, some m =>
    { s with ibe := { base with latched := some (classFor (s.cls.inForce 27) m), sagAbsent := false } }
  | none, none => { s with ibe := { base with latched := some 2, sagAbsent := true } }

end Sys2Proof.Machine
end

