-- ==== Sys2Proof/Machine/Plan.lean ====
section
/-! DEFINITION. The Spin Plan Manager's own operations: the ceiling (chapter 5), the grant and the running of the plan
(chapter 6). -/

namespace Sys2Proof.Machine

/-! ### The ceiling -/

/-- Stage A: the force limit (R78). -/
def forceLimit (u kf g : Nat) : Nat :=
  if u = 0 then 1200 else largestPassing (fun n => u * (n * n) * 100 ≤ kf * kf * g) 1200

/-- Bands in ascending order of lower edge (R60). -/
def ascending (bs : List Band) : List Band := bs.insertionSort (fun a b => a.lower ≤ b.lower)

/-- Stage B: the first band not passed and not crossable, in ascending order (R79, R80). -/
def limitingBand (bs : List Band) (speed u lcross g : Nat) : Option Band :=
  (ascending bs).find? (fun b => speed < b.upper && lcross * g < u * b.peak)

/-- Stage B's figure (R80). -/
def bandLimit (b : Option Band) : Nat :=
  match b with
  | some b => b.lower - 20
  | none => 1200

/-- Stages C and D with the term (R81, R82, R83). At a C of 1200 all of SF, SB and Smax are 1200 and no band gave SB: the tie
order of R83 reads BAND there, its last sentences name SMAX, and the model names SMAX (log 34). -/
def ceilingOf (sf : Nat) (limiting : Option Band) (smax sdist : Nat) (degraded : Bool) (guard : GuardLevel) : Ceiling :=
  let sb := bandLimit limiting
  let c0 := min (min sf sb) (min smax 1200)
  let c1 := if degraded then min c0 400 else c0
  let c2 := if guard = .test then min c1 300 else c1
  let term : CeilingTerm :=
    if c2 < sdist then .floor
    else if c2 < c1 then .test
    else if c1 < c0 then .degraded
    else if 1200 ≤ c0 then .smax
    else if sb ≤ sf ∧ sb ≤ smax then .band
    else if sf ≤ smax then .force
    else .smax
  { value := max c2 sdist, term := term, limiting := if term = .band then limiting.map Band.id else none }

/-- SPM takes an estimate update (R51, R77). -/
def State.takeUpdate (s : State) : State := { s with spm := { s.spm with update := s.estimateUpdate } }

/-- The ceiling for the inputs in force, with U and the DEGRADED mark of the update that SPM took last (R77). -/
def State.ceilingNow (s : State) : Ceiling :=
  ceilingOf (forceLimit s.spm.update.u s.kf s.guardFactor)
    (limitingBand s.rbt.bands s.rpm s.spm.update.u s.lcross s.guardFactor) s.smax s.sdist s.spm.update.degraded
    s.spm.guard

/-- SPM computes the ceiling (R85). -/
def State.computeCeiling (s : State) : State := { s with spm := { s.spm with ceiling := s.ceilingNow } }

/-! ### The active plateau -/

def Plateau.isActive (p : Plateau) : Bool :=
  match p.state with
  | .active _ => true
  | _ => false

def Plateau.isQueued (p : Plateau) : Bool := p.state = .queued

def State.active (s : State) : Option Plateau := s.spm.plateaus.find? Plateau.isActive

def State.activePhase (s : State) : Option Phase :=
  match s.active with
  | some p =>
    match p.state with
    | .active ph => some ph
    | _ => none
  | none => none

/-- The records with the active one changed. -/
def mapActive (f : Plateau → Plateau) (ps : List Plateau) : List Plateau :=
  ps.map (fun p => if p.isActive then f p else p)

def State.updateActive (f : Plateau → Plateau) (s : State) : State :=
  { s with spm := { s.spm with plateaus := mapActive f s.spm.plateaus } }

def Plateau.withPhase (ph : Phase) (p : Plateau) : Plateau := { p with state := .active ph }

/-! ### The grant record -/

/-- A speed lies inside a band (Table 4-2, note 1). -/
def Band.inside (b : Band) (n : Nat) : Bool := b.lower ≤ n && n ≤ b.upper

/-- The cases that force the grant to 0 whatever the plan (Table 6-10, cases 1 to 4). -/
def State.grantForced (s : State) : Bool :=
  s.tripped || !s.tmo.lid || s.spm.restartHold || s.lkp.part ≠ .run

/-- The grant speed by Table 6-10, where a running plan's derivation wants `want` (R119). -/
def State.grantSpeed (want : Nat) (s : State) : Nat :=
  if s.grantForced then 0
  else
    match s.spm.plan with
    | .running => want
    | .paused .rebalance => s.sdist
    | _ => 0

/-- The ramp class (R116). -/
def rampFor (bs : List Band) (grant speed : Nat) (atRest : Bool) : RampClass :=
  if grant = 0 then (if atRest then .normal else .brake)
  else if grant + 30 < speed then .brake
  else if bs.any (fun b => (speed < b.lower && b.lower < grant) || (b.inside speed && b.upper < grant)) then .fast
  else .normal

/-- The reason of a running plan's grant (Table 6-11, DEGRADED to NONE). -/
def State.runningReason (grant : Nat) (s : State) : Reason :=
  match s.active with
  | none => .none
  | some p =>
    if grant < p.target then
      if s.spm.update.degraded then .degraded
      else if s.spm.rejecting || s.spm.derived.any (fun v => grant < v) then .steady
      else if s.spm.bandMoved || (s.spm.ceiling.term = .band && s.spm.ceiling.value < p.target) then .band
      else .ceiling
    else if p.clamped then .clamped
    else .none

/-- The grant reason (Table 6-11). -/
def State.grantReason (grant : Nat) (s : State) : Reason :=
  if s.tripped then .trip
  else if !s.tmo.lid then .lid
  else if s.spm.restartHold || s.lkp.part = .starting then .restart
  else if s.lkp.part ≠ .run then .quiet
  else
    match s.spm.plan with
    | .paused .rebalance => .rebalance
    | .paused _ => .paused
    | .running => s.runningReason grant
    | .complete => if s.rtb.atRest then .none else .planEnd
    | .aborted => if s.rtb.atRest then .none else .planEnd
    | .empty => .none
    | .loaded => .none

/-- The grant record as an evaluation makes it (R122). -/
def State.grantRecord (want : Nat) (s : State) : GrantRecord :=
  let speed := s.grantSpeed want
  { speed := speed, ramp := rampFor s.rbt.bands speed s.rpm s.rtb.atRest, ceiling := s.spm.ceiling,
    slot := s.active.map Plateau.slot, reason := s.grantReason speed }

/-- The dwell tick timer runs while its conditions hold (R118). -/
def State.syncDwell (s : State) : State :=
  let run := s.spm.plan = .running && s.activePhase = some .dwelling && s.spm.inWindow
  { s with spm := { s.spm with
      dwellTimer := if run then s.spm.dwellTimer.orElse (fun _ => s.timerFor dwellTime) else none } }

/-- Arrival at a grant of 0 with the basket at rest (R117). -/
def State.arriveAtZero (s : State) : State :=
  if s.spm.plan = .running && s.activePhase = some .ramping && s.spm.grant.speed = 0 && s.rtb.atRest then
    s.updateActive (Plateau.withPhase .dwelling)
  else s

/-- What a change of grant speed does to arrival and window (R117, R118). -/
def State.speedChanged (old : Nat) (s : State) : State :=
  if s.spm.grant.speed = old then s
  else { s with spm := { s.spm with arrival := 0, inWindow := within 15 s.rpm s.spm.grant.speed } }

/-- The grant record takes a value; a change reaches the image and raises drive attention (R122, R170). -/
def State.putGrant (g : GrantRecord) (s : State) : State :=
  if g = s.spm.grant then s
  else { s with spm := { s.spm with grant := g }, lkp := { s.lkp with image := g, driveAtn := true } }

/-- One evaluation of the grant record, where a running plan's derivation wants `want` (R119, R122). -/
def State.evaluateGrant (want : Nat) (s : State) : State :=
  ((s.putGrant (s.grantRecord want)).speedChanged s.spm.grant.speed).arriveAtZero.syncDwell

/-- An evaluation with no derivation: a running plan keeps its grant speed. -/
def State.refreshGrant (s : State) : State := s.evaluateGrant s.spm.grant.speed

/-! ### Plan states -/

/-- The plan becomes PAUSED, or PAUSED for another reason (R93). -/
def State.pausePlan (r : PauseReason) (s : State) : State :=
  State.post .planState
    { s with spm := { s.spm with
        plan := .paused r, plateaus := mapActive (Plateau.withPhase .held) s.spm.plateaus, derived := none,
        arrival := 0, dwellTimer := none } }

/-- A failed steady search (R113). -/
def State.rebalance (s : State) : State :=
  ((s.post .rebalance).pausePlan .rebalance).evaluateGrant 0

/-! ### Derivation -/

/-- Step 2: a speed moved out of the bands (R111). -/
def moveOut (bs : List Band) : Nat → Nat → Nat
  | 0, c => c
  | n + 1, c =>
    match bs.find? (fun b => b.inside c) with
    | none => c
    | some b => moveOut bs n (b.lower - 20)

def State.outOfBands (s : State) (c : Nat) : Nat := moveOut (ascending s.rbt.bands) s.rbt.bands.length c

/-- The candidates of the steady search: c, c − 10, … above B, then B; none where c lies below B (R112). -/
def candidates (c b : Nat) : List Nat :=
  if c < b then [] else (List.range ((c - b + 9) / 10)).map (fun i => c - 10 * i) ++ [b]

/-- The steady test, with the U of the update that SPM took last (R112). -/
def State.runsSteady (s : State) (n : Nat) : Bool :=
  s.spm.update.u * s.receptance n ≤ s.lst * s.guardFactor

/-- The outcome of steps 1 to 3. -/
structure Derivation where
  bandMoved : Bool
  /-- `none` where the search fails. -/
  value : Option Nat
  rejecting : Bool
  deriving DecidableEq, Repr

/-- Steps 1 to 3 of the derivation for a plateau (R111, R112). -/
def State.derivation (p : Plateau) (s : State) : Derivation :=
  let c0 := min p.target s.spm.ceiling.value
  let c := s.outOfBands c0
  if c ≤ s.sdist then ⟨c ≠ c0, some c, false⟩
  else
    let b := max (p.floor.getD 0) s.sdist
    let v := (candidates c b).find? (fun n => !s.rbt.bands.any (fun band => band.inside n) && s.runsSteady n)
    ⟨c ≠ c0, v, v.any (fun n => n ≠ c)⟩

/-- Step 4: what a held derivation makes of the grant speed in force, SETTLED as the update that SPM took last has it
(R51, R114; log 36). -/
def State.holdRule (v : Nat) (s : State) : Nat :=
  let g := if s.spm.grant.speed = 0 then 0 else s.outOfBands s.spm.grant.speed
  if v < g then v else if g + 40 ≤ v && s.spm.update.settled then v else g

inductive DerivationKind where
  | fresh
  | held
  deriving DecidableEq, Repr

/-- The flags a derivation sets on its plateau (R115). -/
def Plateau.flagged (d : Derivation) (p : Plateau) : Plateau :=
  { p with derated := p.derated || d.value.any (fun v => v < p.target), bandAdjusted := p.bandAdjusted || d.bandMoved }

/-- SPM derives the grant for the active plateau of a running plan; with none the record is only evaluated (R110). -/
def State.derive (kind : DerivationKind) (s : State) : State :=
  match s.spm.plan, s.active with
  | .running, some p =>
    let d := s.derivation p
    let t := s.updateActive (Plateau.flagged d)
    match d.value with
    | none => t.rebalance
    | some v =>
      let t := { t with spm := { t.spm with derived := some v, rejecting := d.rejecting, bandMoved := d.bandMoved } }
      match kind with
      | .fresh => t.evaluateGrant v
      | .held => t.evaluateGrant (t.holdRule v)
  | _, _ => s.refreshGrant

/-- A computation of the ceiling and the derivation that follows it (R85, R110). -/
def State.ceilingAndGrant (s : State) : State := s.computeCeiling.derive .held

/-- The grant when a forcing case of Table 6-10 may have ended (R119; log 31). -/
def State.unforceGrant (s : State) : State :=
  if s.grantForced then s.refreshGrant else s.derive .fresh

/-! ### Running the plan -/

/-- The record with a slot number made ACTIVE (R103). -/
def activateSlot (slot : Nat) (ph : Phase) (ps : List Plateau) : List Plateau :=
  ps.map (fun p => if p.slot = slot then { p with state := .active ph, elapsed := some 0 } else p)

/-- No QUEUED record is left when a plateau ends (R103). -/
def State.completePlan (s : State) : State :=
  State.refreshGrant
    (State.post .planState
      { s with spm := { s.spm with plan := .complete, derived := none, arrival := 0, dwellTimer := none } })

/-- Activation of the QUEUED record with the lowest position, or the plan's completion (R103). -/
def State.activateNext (s : State) : State :=
  match s.spm.plateaus.find? Plateau.isQueued with
  | none => s.completePlan
  | some p =>
    let ph : Phase := if s.spm.plan = .running then .ramping else .held
    State.derive .fresh
      { s with spm := { s.spm with
          plateaus := activateSlot p.slot ph s.spm.plateaus, arrival := 0, dwellTimer := none } }

/-- The active plateau ends and the next is activated (R103). -/
def State.endActive (final : PlateauState) (s : State) : State :=
  State.activateNext (State.post .plateauEnd (s.updateActive (fun p => { p with state := final })))

/-- SPM's arrival test at a revolution completion (R117). -/
def State.testArrival (c : Completion) (s : State) : State :=
  let g := s.spm.grant.speed
  if s.spm.plan = .running && s.activePhase = some .ramping && 0 < g && (g < 60 || c.verdict = .accepted) then
    if within 15 c.speed g then
      if s.spm.arrival + 1 < 2 then { s with spm := { s.spm with arrival := s.spm.arrival + 1 } }
      else
        { s with spm := { s.spm with
            arrival := 2, plateaus := mapActive (Plateau.withPhase .dwelling) s.spm.plateaus } }
    else { s with spm := { s.spm with arrival := 0 } }
  else s

/-- The in-window flag set anew (R118). -/
def State.testWindow (s : State) : State :=
  { s with spm := { s.spm with inWindow := within 15 s.rpm s.spm.grant.speed } }

/-- The target in force and its CLAMPED flag (R94). -/
def Plateau.aim (smax : Nat) (p : Plateau) : Plateau :=
  { p with target := min p.requested smax, clamped := smax < p.requested }

/-- The targets in force at a write of Smax (R94). -/
def State.reaim (s : State) : State :=
  { s with spm := { s.spm with
      plateaus := s.spm.plateaus.map (fun p => if p.isQueued || p.isActive then p.aim s.smax else p) } }

end Sys2Proof.Machine
end

