-- ==== Sys2Proof/Machine/Bands.lean ====
section
/-! DEFINITION. The Resonance Band Table's own operations (chapter 4) and the hand-over of band changes to SPM. -/

namespace Sys2Proof.Machine

/-! ### The table -/

def Band.overlaps (a b : Band) : Bool := a.lower ≤ b.upper && b.lower ≤ a.upper

/-- Each lower edge at or below the other's upper edge plus 20 rpm (R60). -/
def Band.near (a b : Band) : Bool := a.lower ≤ b.upper + 20 && b.lower ≤ a.upper + 20

/-- The lowest FREE slot (R60). -/
def freeSlot (bs : List Band) : Option Nat :=
  (List.range Config.bandSlots).find? (fun n => bs.all (fun b => b.id ≠ n))

def bandAt (bs : List Band) (n : Nat) : Option Band := bs.find? (fun b => b.id = n)

/-- A band put into its slot, the ids kept rising. -/
def putBand (b : Band) (bs : List Band) : List Band :=
  bs.filter (fun a => a.id < b.id) ++ [b] ++ bs.filter (fun a => b.id < a.id)

def removeBand (n : Nat) (bs : List Band) : List Band := bs.filter (fun b => b.id ≠ n)

/-- The band with the lowest lower edge that passes a test. -/
def lowestWhere (p : Band → Bool) (bs : List Band) : Option Band := (ascending bs).find? p

/-- The higher of two origins, ranked CALIBRATED above DECLARED above LEARNED (R62). -/
def Origin.higher (a b : Origin) : Origin :=
  match a, b with
  | .calibrated, _ => .calibrated
  | _, .calibrated => .calibrated
  | .declared, _ => .declared
  | _, .declared => .declared
  | .learned, .learned => .learned

def Band.differs (a b : Band) : Bool := a.lower ≠ b.lower || a.upper ≠ b.upper || a.peak ≠ b.peak

/-- The incoming part merged into the receiving band (R62). An incoming declaration or candidate is a band of hits 1. -/
def Band.merge (recv inc : Band) : Band :=
  let r : Band :=
    { id := recv.id, lower := min recv.lower inc.lower, upper := max recv.upper inc.upper,
      peak := max recv.peak inc.peak, origin := recv.origin.higher inc.origin, hits := min 255 (recv.hits + inc.hits),
      pinned := false, adjusted := false }
  let before := if recv.origin = .calibrated then recv else inc
  { r with
    pinned := r.origin = .learned && (recv.pinned || inc.pinned)
    adjusted := (r.origin = .calibrated && r.differs before) || recv.adjusted || inc.adjusted }

/-- The overlapping pair whose lower-id member has the lowest id (R63; log 25 for its partner). -/
def overlappingPair : List Band → Option (Band × Band)
  | [] => none
  | b :: rest =>
    match rest.find? b.overlaps with
    | some a => some (b, a)
    | none => overlappingPair rest

/-- The merge chain (R63); each merge frees a slot, so as many rounds as bands are enough. -/
def mergeChain : Nat → List Band → List Band
  | 0, bs => bs
  | n + 1, bs =>
    match overlappingPair bs with
    | none => bs
    | some (a, b) => mergeChain n (putBand (a.merge b) (removeBand b.id (removeBand a.id bs)))

/-- A merge into a band of the table with the chain that follows it (R62, R63). -/
def mergeInto (recv inc : Band) (bs : List Band) : List Band :=
  mergeChain bs.length (putBand (recv.merge inc) (removeBand recv.id bs))

/-! ### Calibrated bands -/

/-- A band item's words as a band of origin CALIBRATED, if it is valid for an Sdist (R64). -/
def bandOfWords (sdist : Nat) (ws : List Word) : Option Band :=
  if bandWordsFit ws && sdist + 30 ≤ wordAt ws 0 then
    some ⟨0, wordAt ws 0, wordAt ws 1, wordAt ws 2, .calibrated, 0, false, false⟩
  else none

/-- The LEARNED band, else the DECLARED band, with the highest lower edge (R64). -/
def bandToDisplace (bs : List Band) : Option Band :=
  match (ascending bs).reverse.find? (fun b => b.origin = .learned) with
  | some b => some b
  | none => (ascending bs).reverse.find? (fun b => b.origin = .declared)

/-- The load of one valid item, and whether it displaced a band (R64). -/
def loadBand (b : Band) (bs : List Band) : List Band × Bool :=
  match lowestWhere b.overlaps bs with
  | some recv => (mergeInto recv b bs, false)
  | none =>
    match freeSlot bs with
    | some n => (putBand { b with id := n } bs, false)
    | none =>
      match bandToDisplace bs with
      | some d => (putBand { b with id := d.id } (removeBand d.id bs), true)
      | none => (bs, false)

def State.withBands (bs : List Band) (s : State) : State := { s with rbt := { s.rbt with bands := bs } }

/-- The load of item 38 or 39 (R64). -/
def State.loadBandItem (n : Nat) (s : State) : State :=
  match bandOfWords s.sdist (s.cls.inForce n) with
  | none => s
  | some b =>
    let r := loadBand b s.rbt.bands
    let t := s.withBands r.1
    if r.2 then t.post .bandOverflow else t

/-- RBT loads the calibrated bands (R64). -/
def State.loadBands (s : State) : State := (s.loadBandItem 38).loadBandItem 39

/-- A write of item 38 or 39: every CALIBRATED band is freed and both items load afresh (R65). -/
def State.reloadBands (s : State) : State :=
  (s.withBands (s.rbt.bands.filter (fun b => b.origin ≠ .calibrated))).loadBands

/-- One band at a write of Sdist (R65). -/
def Band.raise (sdist : Nat) (b : Band) : Option Band :=
  if sdist + 30 ≤ b.lower then some b
  else if b.upper ≤ sdist + 30 then none
  else some { b with lower := sdist + 30, adjusted := b.adjusted || b.origin = .calibrated }

/-- The table at a write of Sdist (R65). -/
def State.raiseBands (s : State) : State := s.withBands (s.rbt.bands.filterMap (Band.raise s.sdist))

/-! ### Declarations, candidates and learning -/

/-- Where a declaration or candidate goes (R67, R71). -/
inductive Placing where
  | merged (id : Nat)
  | placed (id : Nat)
  | full
  deriving DecidableEq, Repr

/-- The table with a declaration or candidate placed (R67, R71). -/
def placeBand (b : Band) (bs : List Band) : List Band × Placing :=
  match lowestWhere b.near bs with
  | some recv => (mergeInto recv { b with hits := 1 } bs, .merged recv.id)
  | none =>
    match freeSlot bs with
    | some n => (putBand { b with id := n, hits := 0 } bs, .placed n)
    | none => (bs, .full)

/-- The candidate of a span (R70). -/
def Span.candidate (p : Span) : Band :=
  ⟨0, p.low - 10, min (p.high + 10) 1200, p.peak, .learned, 0, false, false⟩

/-- The span closes; its candidate, if it has one, is placed and the band change handed at once, though the same event may have
handed one before (R70, R71, R61; log 38). -/
def State.closeSpan (s : State) : State :=
  match s.rbt.span with
  | none => s
  | some p =>
    let t := { s with rbt := { s.rbt with span := none } }
    if p.count < 3 then t
    else
      match placeBand p.candidate s.rbt.bands with
      | (_, .full) => t.post .bandOverflow
      | (bs, .merged _) => ((t.withBands bs).post .bandLearned).ceilingAndGrant
      | (bs, .placed _) => ((t.withBands bs).post .bandLearned).ceilingAndGrant

/-- Learning is active against a speed (R68). -/
def State.learningActive (speed : Nat) (s : State) : Bool :=
  s.spm.plan = .running && s.activePhase = some .ramping && speed < s.spm.grant.speed &&
  s.sdist + 40 ≤ speed && s.ibe.uLast.any (fun u => 50 ≤ u)

/-- RBT's test at a report from SPM, and what RIC re-evaluates at it (R68, R109, R143; log 14). -/
def State.planReport (s : State) : State :=
  State.refreeze (if s.learningActive s.rpm then s else s.closeSpan)

/-- The apparent receptance (R69). -/
def apparentReceptance (orbit uLast : Nat) : Nat := min 9999 (orbit * 100 / uLast)

/-- The span after an anomalous revolution (R69). -/
def Span.extend (span : Option Span) (speed ga : Nat) : Span :=
  match span with
  | none => ⟨1, speed, speed, ga⟩
  | some p => ⟨min 255 (p.count + 1), min p.low speed, max p.high speed, max p.peak ga⟩

/-- RBT's work on a completion, with the estimate update attached (R68 to R71). -/
def State.learn (c : Completion) (s : State) : State :=
  if !s.learningActive c.speed then s.closeSpan
  else if !c.countedValid then s
  else
    let ga := apparentReceptance ((s.ibe.orbit.map magnitude).getD 0) (s.ibe.uLast.getD 0)
    if s.receptance c.speed * 5 < ga * 4 then
      { s with rbt := { s.rbt with span := some (Span.extend s.rbt.span c.speed ga) } }
    else s.closeSpan

/-- A plan CLEAR frees the unpinned LEARNED bands (R74). -/
def clearLearned (bs : List Band) : List Band := bs.filter (fun b => b.origin ≠ .learned || b.pinned)

/-- A new table; where it differs, the band change is handed to SPM, before the report that may close a span and change the table
again (R61; log 38). -/
def State.changeBands (bs : List Band) (s : State) : State :=
  if bs = s.rbt.bands then s else ((s.withBands bs).ceilingAndGrant).planReport

end Sys2Proof.Machine
end

