-- ==== Sys2Proof/Machine/Posting.lean ====
section
/-! DEFINITION. Automatic orders (7.4) and the hand-over of an estimate update (R51). -/

namespace Sys2Proof.Machine

/-- The chambers and masses of a posting (R135). -/
structure Allocation where
  first : Fin 4
  firstMass : Nat
  second : Fin 4
  secondMass : Nat
  deriving DecidableEq, Repr

/-- The split of a correction between the two chambers beside its angle (R135). -/
def allocate (u angle : Nat) : Allocation :=
  let theta := (angle + 128) % 256
  let rel := (theta + 256 - 32) % 256
  let delta := rel % 64
  let share (m : Nat) := (u * m + 512) / 1024
  let j : Fin 4 := ⟨rel / 64 % 4, Nat.mod_lt _ (by decide)⟩
  { first := j, firstMass := share (qt (64 - delta)), second := j + 1, secondMass := share (qt delta) }

/-- A new order at the tail; the first order of an empty queue becomes the head now (R132, R136). -/
def State.enqueue (o : Order) (s : State) : State :=
  { s with ric := { s.ric with
      queue := s.ric.queue ++ [o]
      bound := if s.ric.queue.isEmpty then s.capture else s.ric.bound } }

/-- One mass of a posting: below 10 g or without room it is not placed, above the room it is lowered (R136). The caller
has seen to a free entry. -/
def State.placeMass (j : Fin 4) (m : Nat) (s : State) : State :=
  let room := (s.ric.room s.capacity j).getD 0
  if m < 10 || room = 0 then s
  else s.enqueue ⟨j, min m room, 0, .auto, .waiting, room < m⟩

/-- One mass placed where the queue has a free entry (R136). -/
def State.placeMassIfFree (j : Fin 4) (m : Nat) (s : State) : State :=
  if s.ric.queue.length < Config.queueEntries then s.placeMass j m else s

/-- The conditions of an automatic posting (R134). -/
def State.mayPost (s : State) : Bool :=
  s.spm.plan = .running && s.active.any Plateau.autoBalance &&
  s.settled && s.uAuto ≤ s.ibe.uS.getD 0 &&
  s.sinjLo ≤ s.rpm && s.rpm ≤ s.sinjHi &&
  s.ric.queue.all (fun o => o.origin ≠ .auto) &&
  !s.ric.flush && s.ric.contents.isSome && !s.cls.defaulted

/-- RIC's test at an estimate update (R134, R136). -/
def State.autoPost (s : State) : State :=
  if s.mayPost then
    let a := allocate (s.ibe.uS.getD 0) (s.ibe.angle.getD 0)
    if s.ric.room s.capacity a.first = some 0 ∧ s.ric.room s.capacity a.second = some 0 then s.post .ringExhausted
    else
      let t := (s.placeMassIfFree a.first a.firstMass).placeMassIfFree a.second a.secondMass
      if s.ric.queue.length < t.ric.queue.length then t.ordersTaken else t
  else s

/-- An estimate update outside a completion or standstill: IBE tests the latch, RIC tests for automatic orders, SPM takes it
(R51; log 5). -/
def State.giveUpdate (s : State) : State := s.testLatch.autoPost.takeUpdate

/-- An estimate update with the ceiling and the derivation that SPM makes on it (R51, R85). -/
def State.handUpdate (s : State) : State := (s.giveUpdate.ceilingAndGrant).planReport

/-- RIC reports an order becoming SERVING (R46, R133). -/
def State.orderServing (s : State) : State :=
  let t := { s with ibe := { s.ibe with injectionMark := true, settle := 0 } }
  if s.settled then t.handUpdate else t

/-- A change of the guard level (R89). -/
def State.changeGuard (g : GuardLevel) (s : State) : State :=
  if g = s.spm.guard then s
  else
    let t := { s with spm := { s.spm with guard := g } }
    let u := if t.settled = s.settled then t else t.giveUpdate
    u.ceilingAndGrant.planReport

/-- CSM's part of a change of part state (R27, R32). The rate and the quiet reference go at the exit from QUIET, as R27 and R32
say, not at the later entry into RUN, where R177 names them (log 35). -/
def State.samplerPart (old new : PartState) (s : State) : State :=
  if new = .quiet then
    { s with csm := { s.csm with
        quietRef := s.csm.meanSag, staticTimer := s.csm.staticTimer.map (fun _ => s.time + quietStaticTime) } }
  else if old = .quiet then
    { s with csm := { s.csm with
        quietRef := none, staticTimer := s.csm.staticTimer.map (fun _ => s.time + staticTime) } }
  else if old = .starting && s.rpm < 30 then
    { s with csm := { s.csm with staticTimer := s.timerFor staticTime } }
  else s

/-- A change of part state, handed to the neighbours in the same event (Table 9-6, note 1). -/
def State.setPart (p : PartState) (s : State) : State :=
  let t := State.samplerPart s.lkp.part p { s with lkp := { s.lkp with part := p } }
  let u := if p = .quiet then t.discardLatch else t
  State.planReport (if p = .run then u.unforceGrant else u.refreshGrant)

/-- QUIET_PENDING is cancelled (R175). -/
def State.cancelQuiet (s : State) : State :=
  State.setPart .run { s with lkp := { s.lkp with quietTimer := none } }

/-- A wake source is taken (R176, R177). -/
def State.wakeSource (isFrame : Bool) (s : State) : State :=
  let post (t : State) : State := if isFrame then t else t.post .wake
  match s.lkp.part with
  | .quiet => post (State.setPart .waking { s with lkp := { s.lkp with wakeTimer := s.timerFor wakeTime } })
  | .waking => post s
  | .starting => s
  | .run => s
  | .quietPending => s

/-- RTB's report of an entry into TURNING (R7, R175, R176). -/
def State.turningReport (s : State) : State :=
  if s.lkp.part = .quietPending then s.cancelQuiet else s.wakeSource false

/-! ### Trips -/

/-- SPM takes a trip or an unlocked lid (R120): the plan is PAUSED with the reason, where that changes it. -/
def State.takePause (r : PauseReason) (s : State) : State :=
  if s.spm.plan = .paused r then s else s.pausePlan r

/-- SPM's part of a newly set latch (R120). -/
def State.tripPlan (s : State) : State := if s.spm.plan.underway then s.takePause .trip else s

/-- A newly set latch handed to SPM, RIC and LKP (R156, R175). -/
def State.handTrip (s : State) : State :=
  let t := s.tripPlan.refreshGrant.planReport
  if t.lkp.part = .quietPending then t.cancelQuiet else t

/-- A cause that TMO finds (R155). -/
def State.findCause (c : Cause) (s : State) : State :=
  match s.tmo.first with
  | none =>
    State.handTrip
      (State.post .trip { s with tmo := { s.tmo with first := some c, causes := CauseSet.none.add c } })
  | some _ =>
    if s.tmo.causes.has c then s
    else State.post .trip { s with tmo := { s.tmo with causes := s.tmo.causes.add c } }

/-- SPM's part of an unlocked lid (R120). -/
def State.lidPlan (s : State) : State :=
  match s.spm.plan with
  | .running => s.takePause .lid
  | .paused .rebalance => s.takePause .lid
  | _ => s

/-- The lid state changes to UNLOCKED (R160). -/
def State.unlockLid (s : State) : State :=
  (State.post .lid { s with tmo := { s.tmo with lid := false } }).lidPlan.refreshGrant.planReport

/-- The lid state changes to LOCKED (R161). -/
def State.lockLid (s : State) : State :=
  (State.unforceGrant { s with tmo := { s.tmo with lid := true } }).planReport

/-- A clear that is taken (R158, R159). -/
def State.clearTrip (s : State) : State :=
  (State.unforceGrant { s with tmo := { s.tmo with first := none, causes := CauseSet.none } }).planReport

end Sys2Proof.Machine
end

