-- ==== Sys2Proof/Machine/Sampler.lean ====
section
/-! DEFINITION. The Corner Sampler's own operations (chapter 2). -/

namespace Sys2Proof.Machine

/-- A clipped code (R17). -/
def isClipped (c : Code) : Bool := c.toNat = 0 || c.toNat = 1023

/-- A code out of window (R17). -/
def isOutOfWindow (c : Code) : Bool := c.toNat < 8 || 1015 < c.toNat

/-! ### Slots -/

/-- One corner's part of a slot conversion (R19). -/
def Corner.convert (k : Nat) (offset : Nat) (code : Code) (c : Corner) : Corner :=
  let v : Int := (code.toNat : Int) - offset
  { c with
    iSum := c.iSum + v * ct k
    qSum := c.qSum + v * st k
    clipped := if isClipped code then c.clipped + 1 else c.clipped
    outOfWindow := if isOutOfWindow code then c.outOfWindow + 1 else c.outOfWindow }

/-- The part states in which CSM converts at a slot (R17). -/
def PartState.converts : PartState → Bool
  | .starting => false
  | .quiet => false
  | .run => true
  | .quietPending => true
  | .waking => true

/-- CSM takes the slot event k (R17, R19). -/
def State.convertSlot (k : Nat) (codes : Four Code) (s : State) : State :=
  if s.lkp.part.converts then
    let read := Four.zip (fun o c => (o, c)) s.restOffsets codes
    { s with csm := { s.csm with
        corners := Four.zip (fun r c => c.convert k r.1 r.2) read s.csm.corners
        conversions := s.csm.conversions + 1 } }
  else s

/-! ### Channel states -/

/-- An observation of a channel (R24). -/
inductive Observation where
  | dead
  | clean
  | mixed
  deriving DecidableEq, Repr

/-- The observations in a row that change a channel's state (Table 2-6). -/
def Channel.threshold (c : Channel) (r : Regime) : Nat :=
  match c, r with
  | .ok, .static => 8
  | .ok, _ => 1
  | .fault, .static => 8
  | .fault, _ => 4

/-- The observation counts toward a change of the channel's state (Table 2-6). -/
def Channel.counts (c : Channel) (o : Observation) : Bool :=
  match c, o with
  | .ok, .dead => true
  | .fault, .clean => true
  | _, _ => false

def Channel.other : Channel → Channel
  | .ok => .fault
  | .fault => .ok

/-- One observation in a regime (R24, R25, R26). -/
def Corner.observe (r : Regime) (o : Observation) (c : Corner) : Corner :=
  let length := if c.streak.regime = r then c.streak.length else 0
  if c.channel.counts o then
    if c.channel.threshold r ≤ length + 1 then { c with channel := c.channel.other, streak := ⟨.none, 0⟩ }
    else { c with streak := ⟨r, length + 1⟩ }
  else { c with streak := ⟨r, 0⟩ }

/-- A streak of one regime is ended (R24). -/
def Corner.endStreak (r : Regime) (c : Corner) : Corner :=
  if c.streak.regime = r then { c with streak := ⟨.none, 0⟩ } else c

/-- The observation of a full revolution (R24). -/
def Corner.revolutionObservation (c : Corner) : Observation :=
  if c.outOfWindow = 32 then .dead else if c.outOfWindow = 0 then .clean else .mixed

def codeObservation (c : Code) : Observation := if isOutOfWindow c then .dead else .clean

/-! ### Closing a revolution -/

/-- The orbit components of a corner's sums (R21). -/
def Corner.vector (c : Corner) : Vec := ⟨roundDiv (c.iSum * 50) 16384, roundDiv (c.qSum * 50) 16384⟩

def Corner.clear (c : Corner) : Corner := { c with iSum := 0, qSum := 0, clipped := 0, outOfWindow := 0 }

/-- The sums and counts of the revolution become 0 (R20, step 6). -/
def State.clearSums (s : State) : State :=
  { s with csm := { s.csm with corners := s.csm.corners.map Corner.clear, conversions := 0 } }

/-- The revolution is full (R20, step 1). -/
def State.fullRevolution (s : State) : Bool := s.csm.conversions = 32

/-- The channel observations of a closing revolution (R20, step 2). -/
def State.observeRevolution (s : State) : State :=
  { s with csm := { s.csm with
      corners :=
        if s.fullRevolution then s.csm.corners.map (fun c => c.observe .rev c.revolutionObservation)
        else s.csm.corners.map (Corner.endStreak .rev) } }

/-- One entry of the corner report, from the corner as step 2 leaves it (R20, R23). -/
def Corner.report (full accepted : Bool) (c : Corner) : CornerEntry :=
  { channel := c.channel
    vec := if full && accepted && c.channel = .ok then some c.vector else none
    clipped := if full then some c.clipped else none }

/-! ### Sag and load mass -/

/-- Corner by corner: the sum of the sags of the window's entries, in µm (R30). -/
def sagSums (offsets : Four Nat) (window : List (Four Code)) : Four Int :=
  window.foldl
    (fun acc e => Four.zip (fun a b => a + b) acc
      (Four.zip (fun (o : Nat) (c : Code) => ((o : Int) - c.toNat) * 50) offsets e))
    (Four.all 0)

def Csm.okCorners (c : Csm) : Nat := c.corners.toList.countP (fun k => k.channel = .ok)

/-- The mean sag, or invalid (R30). -/
def Csm.sagNow (c : Csm) (offsets : Four Nat) : Option Int :=
  if c.window.length = Config.sagEntries && 3 ≤ c.okCorners then
    let sums := Four.zip (fun (k : Corner) (v : Int) => if k.channel = .ok then v else 0) c.corners
      (sagSums offsets c.window)
    some (roundDiv sums.toList.sum (8 * c.okCorners))
  else none

/-- The load mass for a mean sag (R31). -/
def massOfSag (ksag : Nat) (sag : Int) : Nat := min 30000 ((sag * ksag).tdiv 100).toNat

/-- The load mass recomputed from the mean sag in force (R31). -/
def State.recomputeMass (s : State) : State :=
  { s with csm := { s.csm with loadMass := s.csm.meanSag.map (massOfSag s.ksag) } }

/-- The mean sag and the load mass recomputed (R30, R31). -/
def State.recomputeSag (s : State) : State :=
  State.recomputeMass { s with csm := { s.csm with meanSag := s.csm.sagNow s.restOffsets } }

/-- The static timer's interval (R27). -/
def State.staticInterval (s : State) : Nat := if s.lkp.part = .quiet then quietStaticTime else staticTime

/-- Static sampling stops (R28). -/
def State.stopStatic (s : State) : State :=
  { s with csm := { s.csm with
      corners := s.csm.corners.map (Corner.endStreak .static), staticTimer := none, window := [], meanSag := none,
      loadMass := none } }

/-- The speed applied to static sampling (R28). -/
def State.applyStatic (s : State) : State :=
  if s.csm.staticTimer.isSome then if 30 ≤ s.rpm then s.stopStatic else s
  else if s.rpm < 30 && s.lkp.part ≠ .starting then
    { s with csm := { s.csm with staticTimer := s.timerFor s.staticInterval } }
  else s

/-- A static sample joins the window (R29, step 2). -/
def pushSample (codes : Four Code) (w : List (Four Code)) : List (Four Code) :=
  (if Config.sagEntries ≤ w.length then w.drop 1 else w) ++ [codes]

/-- The quiet sag watch (R32). -/
def State.watchSag (s : State) : State :=
  match s.csm.meanSag, s.csm.quietRef with
  | none, _ => s
  | some m, none => { s with csm := { s.csm with quietRef := some m } }
  | some m, some r =>
    if 2000 < (m - r).natAbs then State.wakeSource false { s with csm := { s.csm with quietRef := none } }
    else s

/-- A static sample (R29). -/
def State.staticSample (codes : Four Code) (s : State) : State :=
  let t : State := { s with csm := { s.csm with
    staticTimer := s.timerFor s.staticInterval
    window := pushSample codes s.csm.window
    corners := Four.zip (fun (d : Code) c => c.observe .static (codeObservation d)) codes s.csm.corners } }
  let u := t.recomputeSag
  if u.lkp.part = .quiet then u.watchSag else u

/-- CSM at a standstill event (R20). -/
def State.samplerStandstill (s : State) : State :=
  State.applyStatic
    (State.clearSums { s with csm := { s.csm with corners := s.csm.corners.map (Corner.endStreak .rev) } })

end Sys2Proof.Machine
end

