-- ==== Sys2Proof/Machine/Rotation.lean ====
section
/-! DEFINITION. The Rotation Timebase's own operations (chapter 1), the Trip Monitor's tests at a completion (chapter 8), and
the passing of a completion and of a standstill through the blocks. -/

namespace Sys2Proof.Machine

/-! ### Index edges -/

/-- The measured speed of a period, in 0.1 rpm (R6). -/
def speedOf (p : Nat) : Nat := if p ≤ 50000 then 12000 else 600000000 / p

/-- Slots issued in the revolution in progress (R10). -/
def Revolution.issued : Revolution → Nat
  | .none => 0
  | .unscheduled => 0
  | .scheduled n => n

/-- The verdict of a closing revolution (R12, Table 1-5). -/
def verdictOf (pPrev : Option Nat) (issued p : Nat) : Verdict :=
  match pPrev with
  | none => .first
  | some q =>
    if slowestScheduled < q then .unscheduled
    else if issued < 32 then .short
    else if q < 8 * (max p q - min p q) then .unsteady
    else .accepted

/-- RTB takes the edge: one of the selected direction, the first of a run or 20 ms after the last taken one (R3). -/
def State.takesEdge (rising : Bool) (s : State) : Bool :=
  rising = s.risingSelected &&
  match s.rtb.lastIndex with
  | none => true
  | some t => noiseInterval ≤ sub24 s.capture t

/-- The first edge of a run (R5, R8, R14). -/
def State.firstEdge (s : State) : State :=
  { s with rtb := { s.rtb with
      lastIndex := some s.capture, runEdges := 1, restTimer := s.timerFor restTime, atRest := false,
      overdue := none, revolution := .unscheduled } }

/-- RTB's own work at an edge that closes a revolution of period p (R11; log 5). -/
def State.closeRevolution (p : Nat) (s : State) : State :=
  { s with rtb :=
    { lastIndex := some s.capture, runEdges := min 2 (s.rtb.runEdges + 1), p := some p, pPrev := some p,
      measured := speedOf p, speedState := .turning, atRest := false, restTimer := s.timerFor restTime,
      revolution := if p ≤ slowestScheduled then .scheduled 0 else .unscheduled,
      overdue := if 600 ≤ speedOf p then s.timerFor (max (2 * p) 500000) else none,
      lastCompletion := some (verdictOf s.rtb.pPrev s.rtb.revolution.issued p) } }

/-- The end of a run (R8). -/
def State.endRun (s : State) : State :=
  { s with rtb :=
    { lastIndex := none, runEdges := 0, p := none, pPrev := none, measured := 0, speedState := .stopped,
      atRest := true, restTimer := none, revolution := .none, overdue := none, lastCompletion := none } }

/-- A write of the index edge item (R4). -/
def State.polarityChanged (s : State) : State :=
  match s.rtb.speedState with
  | .stopped => s
  | .turning => { s with rtb := { s.rtb with pPrev := none, revolution := .unscheduled } }

/-! ### Slots -/

/-- The capture timer instant at which slot k is due (R10). -/
def slotDue (lastIndex pPrev k : Nat) : Nat := (lastIndex + k * pPrev / 32) % 2 ^ 24

/-- The next slot that RTB issues, with its due time; none where no slot is to come (R10). -/
def Rtb.nextSlot (r : Rtb) : Option (Nat × Nat) :=
  match r.revolution, r.lastIndex, r.pPrev with
  | .scheduled k, some t, some p => if k < 32 then some (k, slotDue t p k) else none
  | _, _, _ => none

/-! ### The Trip Monitor at a completion -/

/-- ORBIT is found (R150). -/
def orbitFound (c : Completion) (ltrip g : Nat) : Bool :=
  c.verdict = .accepted && !c.unsampled &&
  c.report.toList.any (fun e =>
    e.channel = .ok && (e.vec.any (fun v => ltrip * g < magnitude v * 100) || e.clipped.any (fun n => 4 ≤ n)))

/-- SENSORS is found (R153). -/
def sensorsFound (c : Completion) (sdist : Nat) : Bool := c.okCount < 2 && sdist + 40 ≤ c.speed

/-- The completion is over speed (R154). -/
def overSpeed (p smax : Nat) : Bool := p * (smax + 50) < 60000000

def State.testOrbit (c : Completion) (s : State) : State :=
  if orbitFound c s.ltrip s.guardFactor then s.findCause .orbit else s

def State.testSensors (c : Completion) (s : State) : State :=
  if sensorsFound c s.sdist then s.findCause .sensors else s

def State.testOverspeed (c : Completion) (s : State) : State :=
  if overSpeed c.p s.smax then
    let n := min 2 (s.tmo.overspeed + 1)
    let t : State := { s with tmo := { s.tmo with overspeed := n } }
    if n = 2 then t.findCause .overspeed else t
  else { s with tmo := { s.tmo with overspeed := 0 } }

/-! ### A completion through the blocks -/

/-- SPM's work on a completion: the update attached to it, ceiling, derivation, arrival, window (R85, R117, R118; log 13). -/
def State.planCompletion (c : Completion) (s : State) : State :=
  ((s.takeUpdate.ceilingAndGrant.testArrival c).testWindow.refreshGrant).planReport

/-- RIC's work on a completion: freeze, window set, timers, the automatic test (R126, R134, R137, R143). -/
def State.ringCompletion (c : Completion) (s : State) : State :=
  ((s.refreeze.newWindows c.capture c.p).bleedTimers).autoPost

def State.takeCompletion (c : Completion) (k : Taker) (s : State) : State :=
  match k with
  | .rbt => s.learn c
  | .spm => s.planCompletion c
  | .ric => s.ringCompletion c
  | .orbit => s.testOrbit c
  | .sensors => s.testSensors c
  | .overspeed => s.testOverspeed c

def allTakers : List Taker := [.rbt, .spm, .ric, .orbit, .sensors, .overspeed]

/-- Every taker once: those the command names, in its order, then the others (log 4). -/
def takersInOrder (order : List Taker) : List Taker :=
  order.dedup ++ allTakers.filter (fun k => !order.contains k)

/-- CSM's report on a closing revolution (R20, R23). -/
def State.completionOf (p capture : Nat) (s : State) : Completion :=
  let accepted := s.rtb.lastCompletion = some .accepted
  { p := p, speed := s.rpm, verdict := s.rtb.lastCompletion.getD .first, capture := capture,
    report := s.csm.corners.map (Corner.report s.fullRevolution accepted)
    unsampled := accepted && !s.fullRevolution }

/-- The completion that an edge issues, from CSM on (R11, R20). -/
def State.issueCompletion (p : Nat) (order : List Taker) (s : State) : State :=
  let t := s.observeRevolution
  let c := t.completionOf p t.capture
  let u := (t.applyStatic.clearSums).estimate c
  (takersInOrder order).foldl (fun v k => v.takeCompletion c k) u

/-- A taken edge that closes a revolution (R5, R7, R11). -/
def State.closingEdge (last : Nat) (order : List Taker) (s : State) : State :=
  let p := sub24 s.capture last
  let t := s.closeRevolution p
  let u := if s.rtb.speedState = .stopped then t.turningReport else t
  u.issueCompletion p order

/-- An index edge (R3, R5). -/
def State.indexEdge (rising : Bool) (order : List Taker) (s : State) : State :=
  if s.takesEdge rising then
    match s.rtb.lastIndex with
    | none => s.firstEdge.refreshGrant
    | some last => s.closingEdge last order
  else s

/-! ### A standstill through the blocks -/

/-- SPM at a standstill (R85, R117, R118, R121). -/
def State.planStandstill (s : State) : State :=
  let held := s.spm.restartHold
  let t : State := State.takeUpdate { s with spm := { s.spm with restartHold := false } }
  let u := (if held then t.computeCeiling.unforceGrant else t.ceilingAndGrant)
  (u.testWindow.refreshGrant).planReport

/-- RIC at a standstill (R126, R143). -/
def State.ringStandstill (s : State) : State := (s.refreeze.dropWindows.bleedTimers).autoPost

def State.takeStandstill (k : Taker) (s : State) : State :=
  match k with
  | .rbt => s.closeSpan
  | .spm => s.planStandstill
  | .ric => s.ringStandstill
  | .orbit => s
  | .sensors => s
  | .overspeed => { s with tmo := { s.tmo with overspeed := 0 } }

/-- The rest timer runs out and RTB issues standstill (R8). -/
def State.standstill (order : List Taker) (s : State) : State :=
  let t := s.endRun.samplerStandstill.idleEstimate.testLatch
  (takersInOrder order).foldl (fun u k => u.takeStandstill k) t

end Sys2Proof.Machine
end

