-- ==== Sys2Proof/Machine/Operands.lean ====
section
/-! DEFINITION. Operand and record forms: the codes of enumerated fields, the words of every record (Table 11-5, R189) and the
parameters a request carries (Table 11-4). -/

namespace Sys2Proof.Machine

/-! ### Fields -/

/-- The absent value (R189). -/
def absentWord : Word := 0xFFFF#16

def word (n : Nat) : Word := BitVec.ofNat 16 n

def flagWord (b : Bool) : Word := if b then 1#16 else 0#16

def optionWord (o : Option Nat) : Word :=
  match o with
  | some n => word n
  | none => absentWord

/-- A 32-bit field, high word first (R189). -/
def longWords (n : Nat) : List Word := [word (n / 65536), word n]

/-- A field of one word whose number has no upper bound (log 39). -/
def unboundedWord (n : Nat) : Word := if n < 2 ^ 16 then word n else Config.overgrownWord 0 n

/-- A field of two words whose number has no upper bound (log 39). -/
def unboundedLong (n : Nat) : List Word :=
  if n < 2 ^ 32 then longWords n else [Config.overgrownWord 0 n, Config.overgrownWord 1 n]

def optionLong (o : Option Nat) : List Word :=
  match o with
  | some n => longWords n
  | none => [absentWord, absentWord]

/-- A field of flags, bit 0 first (R189). -/
def bitsValue : List Bool → Nat
  | [] => 0
  | b :: rest => (if b then 1 else 0) + 2 * bitsValue rest

def bitsWord (bs : List Bool) : Word := word (bitsValue bs)

/-- A list of at most n words, the missing ones absent (R189). -/
def padWords (n : Nat) (ws : List Word) : List Word := ws ++ List.replicate (n - ws.length) absentWord

/-- A magnitude in a record (R189). -/
def magnitudeWord (o : Option Nat) : Word := optionWord (o.map (fun n => min n 65534))

/-- Mean sag, signed; 80000000H while invalid (R189). -/
def sagWords (o : Option Int) : List Word :=
  match o with
  | some v => longWords (v % 4294967296).toNat
  | none => longWords 0x80000000

/-! ### Codes, counting from 0 in the order of Table 11-5 -/

def RampClass.code : RampClass → Nat
  | .normal => 0
  | .fast => 1
  | .brake => 2

def CeilingTerm.code : CeilingTerm → Nat
  | .force => 0
  | .band => 1
  | .smax => 2
  | .degraded => 3
  | .test => 4
  | .floor => 5

def Reason.code : Reason → Nat
  | .none => 0
  | .trip => 1
  | .lid => 2
  | .restart => 3
  | .quiet => 4
  | .paused => 5
  | .rebalance => 6
  | .degraded => 7
  | .steady => 8
  | .band => 9
  | .ceiling => 10
  | .clamped => 11
  | .planEnd => 12

def PauseReason.code : PauseReason → Nat
  | .partner => 0
  | .rebalance => 1
  | .lid => 2
  | .trip => 3

def PlanState.code : PlanState → Nat
  | .empty => 0
  | .loaded => 1
  | .running => 2
  | .paused _ => 3
  | .complete => 4
  | .aborted => 5

def PlanState.pauseReason : PlanState → Option PauseReason
  | .paused r => some r
  | _ => none

def Phase.code : Phase → Nat
  | .ramping => 0
  | .dwelling => 1
  | .held => 2

def EndCause.code : EndCause → Nat
  | .expired => 0
  | .next => 1
  | .withdrawn => 2
  | .aborted => 3

def PlateauState.code : PlateauState → Nat
  | .queued => 0
  | .active _ => 1
  | .done _ => 2
  | .skipped _ => 3

def PlateauState.phase : PlateauState → Option Phase
  | .active ph => some ph
  | _ => none

def PlateauState.endCause : PlateauState → Option EndCause
  | .done c => some c
  | .skipped c => some c
  | _ => none

def EstState.code : EstState → Nat
  | .idle => 0
  | .valid => 1
  | .invalid => 2

def SnapshotResult.code : SnapshotResult → Nat
  | .met => 0
  | .gaveUp => 1

def Origin.code : Origin → Nat
  | .calibrated => 0
  | .declared => 1
  | .learned => 2

def ChamberState.code : ChamberState → Nat
  | .empty => 0
  | .filling => 1
  | .holding => 2
  | .draining => 3
  | .unknown => 4

def OrderOrigin.code : OrderOrigin → Nat
  | .auto => 0
  | .partner => 1

def OrderState.code : OrderState → Nat
  | .waiting => 0
  | .serving => 1

def PartState.code : PartState → Nat
  | .starting => 0
  | .run => 1
  | .quietPending => 2
  | .quiet => 3
  | .waking => 4

def SpeedState.code : SpeedState → Nat
  | .stopped => 0
  | .turning => 1

def Verdict.code : Verdict → Nat
  | .first => 0
  | .unscheduled => 1
  | .short => 2
  | .unsteady => 3
  | .accepted => 4

def Cause.code : Cause → Nat
  | .orbit => 0
  | .strike => 1
  | .tachLost => 2
  | .sensors => 3
  | .overspeed => 4

def GuardLevel.code : GuardLevel → Nat
  | .normal => 0
  | .tight => 1
  | .test => 2

def Source.code : Source → Nat
  | .stored => 0
  | .blank => 1
  | .fault => 2

/-- Outcome codes (Table 11-3). -/
def Outcome.code : Outcome → Nat
  | .done => 0
  | .adjusted => 1
  | .pending => 2
  | .busy => 3
  | .access => 4
  | .range => 5
  | .protect => 6
  | .full => 7
  | .absent => 8

/-! ### Records (Table 11-5) -/

/-- GRANT (7). -/
def GrantRecord.words (g : GrantRecord) : List Word :=
  [word g.speed, word g.ramp.code, word g.ceiling.value, word g.ceiling.term.code, optionWord g.ceiling.limiting,
   optionWord g.slot, word g.reason.code]

/-- PLAN (12). -/
def State.planWords (s : State) : List Word :=
  [word s.spm.plan.code, optionWord (s.spm.plan.pauseReason.map PauseReason.code), word s.spm.plateaus.length,
   optionWord (s.active.map Plateau.slot)] ++
  padWords Config.plateauSlots (s.spm.plateaus.map (fun p => word p.slot))

/-- PLATEAU (13), at a position, with the grant speed in force (R103). -/
def Plateau.words (p : Plateau) (position granted : Nat) : List Word :=
  [word p.slot, word position, word p.requested, word p.target, word p.dwell, optionWord p.floor,
   flagWord p.autoBalance, word p.state.code, optionWord (p.state.phase.map Phase.code),
   optionWord (p.state.phase.map (fun _ => granted)), optionWord p.elapsed,
   bitsWord [p.clamped, p.derated, p.bandAdjusted], optionWord (p.state.endCause.map EndCause.code)]

/-- ESTIMATE (13); the snapshot result is absent in an answer to key 0. -/
def EstimateRecord.words (e : EstimateRecord) (result : Option SnapshotResult) : List Word :=
  [word e.est.code, bitsWord [e.settled, e.ringSettled, e.degraded], word e.settle, optionWord e.speed,
   magnitudeWord e.orbit, optionWord e.uRev, magnitudeWord e.smooth, optionWord e.uS, optionWord e.angle,
   optionWord e.uLast, word e.uEval, word e.tableClass.val, optionWord (result.map SnapshotResult.code)]

/-- LOAD (8). -/
def State.loadWords (s : State) : List Word :=
  [flagWord s.ibe.declared.isSome, optionWord (s.ibe.declared.map Fin.val), optionWord (s.ibe.latched.map Fin.val),
   flagWord s.ibe.sagAbsent, word s.tableClass.val] ++
  sagWords s.csm.meanSag ++ [optionWord s.csm.loadMass]

/-- BAND (7). -/
def Band.words (b : Band) : List Word :=
  [word b.id, word b.lower, word b.upper, word b.peak, word b.origin.code, word b.hits,
   bitsWord [b.pinned, b.adjusted]]

/-- CHAMBER (7). -/
def State.chamberWords (j : Fin 4) (s : State) : List Word :=
  [word j.val, word (64 * j.val + 32)] ++ optionLong (s.ric.contents.map (fun c => c.get j)) ++
  [optionWord (s.ric.mass j), word (s.chamberState j).code, optionWord (s.ric.room s.capacity j)]

/-- A word of the QUEUE summary: the chamber in the high byte, the state in the low byte. -/
def Order.summaryWord (o : Order) : Word := word (256 * o.chamber.val + o.state.code)

/-- QUEUE, position 0 (10). -/
def State.queueWords (s : State) : List Word :=
  [word s.ric.queue.length, bitsWord [s.ric.flush, s.ric.frozen, s.valveLine]] ++
  padWords Config.queueEntries (s.ric.queue.map Order.summaryWord)

/-- QUEUE, position 1 to 8 (9). The merges of a head that is put back again and again bound neither grams requested nor mg
delivered (Table 7-5, R128; log 39). -/
def Order.words (o : Order) (position : Nat) : List Word :=
  [word position, word o.chamber.val, unboundedWord o.requested] ++ unboundedLong o.delivered ++
  [word o.remaining, word o.origin.code, word o.state.code, flagWord o.clamped]

/-- The notices a STATUS answer shows on a port (R171). -/
def State.noticesOn (p : Port) (s : State) : NoticeSet :=
  match p with
  | .cycle => s.lkp.notices
  | .drive => NoticeSet.empty

/-- STATUS (13). -/
def State.statusWords (p : Port) (s : State) : List Word :=
  [word s.lkp.part.code, word s.rtb.speedState.code, flagWord s.rtb.atRest, word s.rtb.measured,
   optionWord (s.rtb.lastCompletion.map Verdict.code),
   bitsWord (s.csm.corners.toList.map (fun c => c.channel = .fault)), flagWord s.tripped,
   optionWord (s.tmo.first.map Cause.code), bitsWord (allCauses.map (fun c => s.tmo.causes.has c)),
   bitsWord [s.tmo.strike, s.tmo.lid], word s.spm.guard.code, bitsWord [s.cls.defaulted, s.cls.unlocked],
   bitsWord (allNotices.map (fun n => (s.noticesOn p).has n))]

/-- CAL, key 0 (4). -/
def Cls.summaryWords (c : Cls) : List Word :=
  [flagWord c.defaulted, flagWord c.unlocked, flagWord c.lockout,
   word (c.items.countP (fun i => i.source = .fault))]

/-- CAL, item (19): item 6 shows no key word (R182). -/
def Cls.itemWords (c : Cls) (spec : ItemSpec) (i : Item) : List Word :=
  [word i.num, flagWord (!spec.fixed), word i.source.code] ++
  (if i.num = 6 then List.replicate 16 absentWord else padWords 16 (c.inForce i.num))

/-! ### Parameters of requests (Table 11-4) -/

/-- The parameters of APPEND and of AMEND PLATEAU. -/
structure PlateauParams where
  target : Nat
  dwell : Nat
  floor : Option Nat
  autoBalance : Nat
  deriving DecidableEq, Repr

def plateauParams (ps : List Word) : PlateauParams :=
  { target := wordAt ps 0, dwell := wordAt ps 1,
    floor := if ps.getD 2 0#16 = absentWord then none else some (wordAt ps 2), autoBalance := wordAt ps 3 }

/-- Test 2 of R96. -/
def PlateauParams.fits (v : PlateauParams) : Bool :=
  v.target ≤ 1200 && v.floor.all (fun f => f ≤ 1200 && f ≤ v.target) && v.autoBalance ≤ 1

/-- The target is clamped or the dwell lowered (R94, R96). -/
def PlateauParams.adjusted (smax : Nat) (v : PlateauParams) : Bool := smax < v.target || 18000 < v.dwell

/-- A record given target, dwell and floor (R94). -/
def Plateau.give (smax : Nat) (v : PlateauParams) (p : Plateau) : Plateau :=
  Plateau.aim smax { p with requested := v.target, dwell := min v.dwell 18000, floor := v.floor }

/-- One pair of an INJECT. -/
structure Pair where
  chamber : Nat
  grams : Nat
  deriving DecidableEq, Repr

def pairsOf : List Word → List Pair
  | c :: g :: rest => ⟨c.toNat, g.toNat⟩ :: pairsOf rest
  | _ => []

/-- The guard level a GUARD names (Table 11-3, note). -/
def guardOf (n : Nat) : Option GuardLevel :=
  match n with
  | 0 => some .normal
  | 1 => some .tight
  | 2 => some .test
  | _ => none

end Sys2Proof.Machine
end

