-- ==== Sys2Proof/Machine/CalStore.lean ====
section
/-! DEFINITION. The Calibration Store's own operations (chapter 10): the load, the tests of a write, the write with its
consumers, and programming. -/

namespace Sys2Proof.Machine

/-! ### The load (R179, R185) -/

/-- The source of an item at a load (R179; the check code is kept as match or no match, log 7). -/
def classify (spec : ItemSpec) (stored : List Word) (checkOk : Bool) : Source :=
  if isBlank stored then (if spec.fixed || spec.num = 39 then .blank else .fault)
  else if checkOk && inRange spec.num stored then .stored
  else .fault

/-- An item with its source and the value its source gives (R179). -/
def Item.resolve (i : Item) : Item :=
  match specOf i.num with
  | none => i
  | some spec =>
    let source := classify spec i.stored i.checkOk
    { i with source := source, held := if source = .stored then i.stored else spec.default }

/-- An item at its default with source FAULT. -/
def Item.fail (i : Item) : Item := { i with source := .fault, held := defaultOf i.num }

/-- Items changed one by one, those whose number passes a test. -/
def Cls.update (p : Nat → Bool) (f : Item → Item) (c : Cls) : Cls :=
  { c with items := c.items.map (fun i => if p i.num then f i else i) }

/-- Shold, Sinj_lo and Sinj_hi in force agree (R180, test 5). -/
def Cls.rangeAgrees (c : Cls) : Bool := c.value 15 ≤ c.value 16 && c.value 16 < c.value 17

/-- The default of item 38 formed from the Sdist in force (R185). -/
def Cls.formBand (c : Cls) : Cls :=
  c.update (fun n => n = 38) (fun i => if i.source = .fault then { i with held := defaultBand (c.value 14) } else i)

/-- The load of the store: sources, the re-tested cross checks, the default of item 38, service LOCKED (R185). -/
def Cls.load (c : Cls) : Cls :=
  let c1 := c.update (fun _ => true) Item.resolve
  let c2 := if c1.rangeAgrees then c1 else c1.update (fun n => n = 15 || n = 16 || n = 17) Item.fail
  { c2.formBand with unlocked := false }

/-! ### The tests of a write (R180) -/

/-- A band item keeps lower ≥ Sdist + 30 where it is not blank. -/
def bandClears (sdist : Nat) (ws : List Word) : Bool := isBlank ws || sdist + 30 ≤ wordAt ws 0

/-- The cross checks of a write (R180, test 5). -/
def Cls.crossOk (n : Nat) (ws : List Word) (c : Cls) : Bool :=
  let v := wordAt ws 0
  match n with
  | 15 => v ≤ c.value 16
  | 16 => c.value 15 ≤ v && v < c.value 17
  | 17 => c.value 16 < v
  | 14 => bandClears v (c.inForce 38) && bandClears v (c.inForce 39)
  | 38 => bandClears (c.value 14) ws
  | 39 => bandClears (c.value 14) ws
  | _ => true

/-- A write may not change the item now (R180, test 3). -/
def Cls.writeProtected (spec : ItemSpec) (i : Item) (c : Cls) : Bool :=
  if spec.fixed then i.source ≠ .blank else !c.unlocked

/-- The first failing test of a write to an item, after its key and the plan state have been tested (R180). -/
def Cls.writeRefused (spec : ItemSpec) (i : Item) (ws : List Word) (c : Cls) : Option Outcome :=
  if c.writeProtected spec i then some .protect
  else if !inRange spec.num ws then some .range
  else if !c.crossOk spec.num ws then some .range
  else none

/-! ### The taking of a write (R181) -/

/-- The store with a write taken: the words in force, the source STORED, and programming begun. -/
def Cls.take (n : Nat) (ws : List Word) (c : Cls) : Cls :=
  { c.update (fun m => m = n) (fun i => { i with source := .stored, held := ws }) with
    programming := some ⟨n, ws⟩ }

/-- The value in force of an item differs between two stores. -/
def Cls.differs (old new : Cls) (n : Nat) : Bool := old.inForce n ≠ new.inForce n

/-- One consumer's part of a write, done where one of its items changed. -/
def State.ifChanged (changed : Nat → Bool) (ns : List Nat) (f : State → State) (s : State) : State :=
  if ns.any changed then f s else s

/-- U_init stands in for U_last in the evaluation imbalance (R50, R53). -/
def State.usesUInit (s : State) : Bool := s.ibe.uLast.isNone && !s.settled

/-- IBE's part of a write (R53). -/
def State.estimatorWrite (changed : Nat → Bool) (s : State) : State :=
  let c := s.tableClass.val
  let t := s.ifChanged changed [30 + c, 34 + c] State.restartSmoothing
  if [30 + c, 34 + c].any changed || (changed 21 && s.usesUInit) then t.giveUpdate else t

/-- A chamber's mass with its orders exceeds a capacity (R148). -/
def Ric.overfull (capacity : Nat) (r : Ric) (j : Fin 4) : Bool :=
  (r.mass j).any (fun m => capacity < m + queuedGrams r.queue j)

/-- The contents lowered to a capacity in g (R148). -/
def Ric.lowerContents (capacity : Nat) (r : Ric) : Ric :=
  { r with contents := r.contents.map (Four.map (fun mg => if capacity < mg / 1000 then capacity * 1000 else mg)) }

/-- The orders of the chambers that a test names leave the queue (R128, R148). -/
def State.removeOrders (full : Fin 4 → Bool) (s : State) : State :=
  let q := mergeAdjacent (s.ric.queue.filter (fun o => !full o.chamber))
  let headLeaves := (s.ric.queue.head?).any (fun o => full o.chamber)
  { s with ric := { s.ric with
      queue := q, flush := s.ric.flush && !q.isEmpty,
      bound := if headLeaves && !q.isEmpty then s.capture else s.ric.bound } }

/-- The contents lowered to the capacity in force. -/
def State.lowerContents (s : State) : State := { s with ric := s.ric.lowerContents s.capacity }

/-- RIC at a write of the chamber capacity, in the order of R148: contents lowered, the chambers that are then too full found, the
opening of a head that leaves closed with its credit, which leaves no mass above the capacity (R129), the orders removed (log 16). -/
def State.capacityWrite (s : State) : State :=
  let t := s.lowerContents
  let full := t.ric.overfull s.capacity
  State.removeOrders full (if (t.ric.queue.head?).any (fun o => full o.chamber) then t.cutOpening.lowerContents else t)

/-- What the consumers do at a write that has changed items (R181); SPM comes last, on the table as the write leaves it. -/
def State.consumeWrite (changed : Nat → Bool) (s : State) : State :=
  let a := s.ifChanged changed [5] (fun t => t.polarityChanged.dropWindows)
  let b := (a.ifChanged changed [23, 24, 25, 26] State.recomputeSag).ifChanged changed [22] State.recomputeMass
  let c := b.estimatorWrite changed
  let d := (c.ifChanged changed [14] State.raiseBands).ifChanged changed [38, 39] State.reloadBands
  let e := ((d.ifChanged changed [3] State.capacityWrite).ifChanged changed [15] State.bleedTimers).ifChanged
    changed [16, 17] State.refreeze
  let f := e.ifChanged changed [2] State.reaim
  f.ceilingAndGrant.planReport

/-- A write taken (R179, R181). -/
def State.takeWrite (n : Nat) (ws : List Word) (s : State) : State :=
  State.consumeWrite (s.cls.differs (s.cls.take n ws)) { s with cls := s.cls.take n ws }

/-! ### Programming (R181) -/

/-- Programming ends: the stored words and their check code are the new ones. -/
def Cls.programmed (p : Programming) (c : Cls) : Cls :=
  { c.update (fun n => n = p.item) (fun i => { i with stored := p.words, checkOk := true }) with programming := none }

/-- What a cut-off programming leaves of an item: the words it had reached, erased words after them, and a check code that
matches only if it had come past the last word (R181; log 6). -/
def cutWords (reached : Nat) (ws : List Word) : List Word := ws.take reached ++ blankWords (ws.length - reached)

/-- Programming is cut off by a reset (R181, R187). -/
def Cls.cutProgramming (reached : Nat) (c : Cls) : Cls :=
  match c.programming with
  | none => c
  | some p =>
    { c.update (fun n => n = p.item) (fun i =>
        { i with stored := cutWords reached p.words, checkOk := p.words.length < reached }) with programming := none }

end Sys2Proof.Machine
end

