-- ==== Sys2Proof/Machine/ResetOps.lean ====
section
/-! DEFINITION. The beginning and the end of a reset (R1, R16, R33, R59, R76, R123, R149, R163, R178, R185, R187). -/

namespace Sys2Proof.Machine

/-- Every block held at its values of a reset in force; the store's non-volatile part, the pins and the time stay. -/
def State.holdBlocks (s : State) : State :=
  { s with
    startUp := none
    rtb := Rtb.held
    csm := Csm.held
    ibe := Ibe.held
    rbt := Rbt.held
    spm := Spm.held s.spm.ceiling s.spm.guard s.spm.update
    ric := Ric.held
    tmo := Tmo.held
    lkp := Lkp.held ⟨0, .brake, s.spm.ceiling, none, .restart⟩ }

/-- The store at the beginning of a reset (R184, R187, Table 10-4). -/
def Cls.beginReset (powerOn : Bool) (reached : Nat) (c : Cls) : Cls :=
  { c.cutProgramming reached with unlocked := false, lockout := c.lockout && !powerOn }

/-- A reset begins. -/
def State.beginReset (powerOn : Bool) (reached : Nat) (rst : ResetControl) (s : State) : State :=
  State.holdBlocks { s with rst := rst, cls := s.cls.beginReset powerOn reached }

/-- The load: CLS reads its items and posts CAL_FAULT if DEFAULTED (R185). -/
def State.loadStore (s : State) : State :=
  let t := { s with cls := s.cls.load }
  if t.cls.defaulted then t.post .calFault else t

/-- The timers that start at the end of a reset (R8, R126, R127, R163, R186). -/
def State.startTimers (s : State) : State :=
  { s with
    startUp := s.timerFor startUpTime
    rtb := { s.rtb with restTimer := s.timerFor restTime }
    ric := { s.ric with bleedTimer := s.timerFor bleedTime, unknownTimer := s.timerFor unknownTime }
    tmo := { s.tmo with
      strikeTimer := if s.strikePin then s.timerFor debounceTime else none
      lidTimer := if s.lidPin then s.timerFor debounceTime else none } }

/-- SPM's guard level at the end of a reset (R87). -/
def State.loadGuard (s : State) : State := { s with spm := { s.spm with guard := s.defaultGuard } }

/-- The grant record as R123 shows it after a reset, with the first ceiling (Table 6-12; log 30). -/
def State.resetGrant (s : State) : State :=
  let g : GrantRecord := ⟨0, .brake, s.spm.ceiling, none, .restart⟩
  { s with spm := { s.spm with grant := g }, lkp := { s.lkp with image := g } }

/-- The end of the last reset in force: time starts from 0 and start-up takes the load (R1, R2, R91, R185). -/
def State.endReset (s : State) : State :=
  let t := State.startTimers { s.holdBlocks with time := 0, rst := ⟨none, false⟩ }
  ((t.loadStore.loadGuard.loadBands).takeUpdate.computeCeiling).resetGrant

end Sys2Proof.Machine
end

