-- ==== Sys2Proof/Machine/Link.lean ====
section
/-! DEFINITION. The Link Ports (chapter 9): a frame's way to its owner and its answer, and the assembly of characters into
frames. -/

namespace Sys2Proof.Machine

/-! ### Frames -/

/-- A whole request frame with a matching check (Table 11-1). -/
structure Frame where
  port : Port
  addr : Byte
  kind : Byte
  cls : Byte
  key : Word
  params : List Word
  deriving DecidableEq, Repr

/-- The frame of a request row. -/
def frameOf (kind cls : Byte) (r : Request) : Frame := ⟨r.port, r.addr, kind, cls, r.key, r.params⟩

/-- The frame of a COMMAND row: the key word is the command code (R188). -/
def commandFrame (cls : Byte) (command : Word) (r : CommandRequest) : Frame :=
  ⟨r.port, r.addr, 6#8, cls, command, r.params⟩

def Frame.caller (f : Frame) : Caller := ⟨f.addr, f.kind, f.cls⟩

/-- A parameter word, 0 where it is not there. -/
def Frame.param (f : Frame) (i : Nat) : Nat := wordAt f.params i

/-- A form of request: kind, class, the command code where the kind is COMMAND, and the parameter counts (Tables 9-2, 9-3
and 11-4). -/
structure Form where
  kind : Byte
  cls : Byte
  command : Option Word
  counts : List Nat
  deriving DecidableEq, Repr

/-- Every form that passes the form check. -/
def forms : List Form :=
  ([1, 2, 3, 4, 5, 6, 7, 8, 9, 10] : List Byte).map (fun c => ⟨1#8, c, none, [0]⟩) ++
  [⟨2#8, 2#8, none, [4]⟩, ⟨3#8, 2#8, none, [4]⟩, ⟨3#8, 8#8, none, [1]⟩, ⟨4#8, 2#8, none, [0]⟩,
   ⟨5#8, 2#8, none, [0]⟩, ⟨5#8, 5#8, none, [0]⟩, ⟨7#8, 7#8, none, [2, 4, 6, 8]⟩, ⟨8#8, 5#8, none, [3]⟩,
   ⟨9#8, 5#8, none, [1]⟩, ⟨10#8, 10#8, none, [16]⟩, ⟨11#8, 10#8, none, [4]⟩] ++
  [⟨6#8, 1#8, some 1#16, [0]⟩, ⟨6#8, 1#8, some 2#16, [0]⟩, ⟨6#8, 1#8, some 3#16, [0]⟩, ⟨6#8, 1#8, some 4#16, [1]⟩,
   ⟨6#8, 1#8, some 5#16, [0]⟩, ⟨6#8, 1#8, some 6#16, [0]⟩, ⟨6#8, 9#8, some 7#16, [0]⟩, ⟨6#8, 7#8, some 8#16, [0]⟩,
   ⟨6#8, 7#8, some 9#16, [0]⟩, ⟨6#8, 9#8, some 10#16, [1]⟩, ⟨6#8, 9#8, some 11#16, [1]⟩,
   ⟨6#8, 10#8, some 12#16, [0]⟩, ⟨6#8, 9#8, some 13#16, [0]⟩]

/-- A frame is of a form. -/
def Form.admits (fm : Form) (f : Frame) : Bool :=
  fm.kind = f.kind && fm.cls = f.cls && fm.command.all (fun c => c = f.key) && fm.counts.contains f.params.length

/-- The form check (R168). -/
def Frame.formOk (f : Frame) : Bool := forms.any (fun fm => fm.admits f)

/-- LOOKUP of a class. -/
def Frame.isLookup (f : Frame) (cls : Byte) : Bool := f.kind = 1#8 && f.cls = cls

/-- A drive GRANT lookup (R167). -/
def Frame.driveGrant (f : Frame) : Bool := f.port = .drive && f.isLookup 3#8 && f.params.isEmpty

/-- Drive-port rights (R169). -/
def Frame.driveRights (f : Frame) : Bool := f.isLookup 3#8 || f.isLookup 4#8 || f.isLookup 9#8

/-- The COMMAND QUIET (R174). -/
def Frame.isQuiet (f : Frame) : Bool := f.kind = 6#8 && f.cls = 9#8 && f.key = 11#16

/-! ### What an owner answers -/

/-- An owner's outcome: the state its event leaves and its answer, `none` where the answer is held back (R181). -/
structure Reply where
  state : State
  answer : Option Answer
  resetAfter : Bool
  deriving DecidableEq, Repr

/-- What a block does with a request handed to it. -/
abbrev Owner := Frame → State → Reply

/-- An answer with no record. -/
def State.answer (s : State) (o : Outcome) : Reply := ⟨s, some ⟨o, []⟩, false⟩

/-- An answer with words. -/
def State.answerWith (s : State) (o : Outcome) (ws : List Word) : Reply := ⟨s, some ⟨o, ws⟩, false⟩

/-! ### Ports -/

def State.portOf (s : State) (p : Port) : PortState :=
  match p with
  | .cycle => s.lkp.cycle
  | .drive => s.lkp.drive

def State.setPort (p : Port) (v : PortState) (s : State) : State :=
  match p with
  | .cycle => { s with lkp := { s.lkp with cycle := v } }
  | .drive => { s with lkp := { s.lkp with drive := v } }

/-- The receive frame is empty again, its last character ended now. -/
def State.clearRx (p : Port) (s : State) : State :=
  s.setPort p { s.portOf p with rx := ⟨[], s.time, false⟩ }

/-- The node address in force; none until start-up has read item 1 (R165). -/
def State.nodeAddress (s : State) : Option Nat := if s.inReset then none else some (s.cls.value 1)

inductive Addressing where
  | ignored
  | broadcast
  | addressed
  deriving DecidableEq, Repr

/-- To whom a frame is addressed (R165). -/
def State.addressing (f : Frame) (s : State) : Addressing :=
  match f.port with
  | .drive => .addressed
  | .cycle =>
    if s.nodeAddress = some f.addr.toNat then .addressed
    else if f.addr = 15#8 then .broadcast
    else .ignored

/-- The request in progress of a frame, with the answer to come (R166). -/
def State.finish (f : Frame) (r : Reply) : State :=
  r.state.setPort f.port
    { r.state.portOf f.port with inProgress := some ⟨f.caller, r.answer, r.resetAfter⟩ }

/-! ### Dealing with a frame (R167) -/

/-- Case 5: quiet is cancelled by any frame but a cycle-port LOOKUP of STATUS (log 21). -/
def State.cancelledBy (f : Frame) (s : State) : State :=
  if s.lkp.part = .quietPending && !(f.port = .cycle && f.isLookup 9#8) then s.cancelQuiet else s

/-- Cases 6 to 9 for an addressed frame. -/
def State.examine (own : Owner) (f : Frame) (s : State) : Reply :=
  if !f.formOk then s.answer .access
  else if f.port = .drive && !f.driveRights then s.answer .access
  else own f s

/-- The first case that applies to an addressed frame. -/
def State.dealAddressed (own : Owner) (f : Frame) (s : State) : Reply :=
  match s.lkp.part with
  | .starting => s.answer .busy
  | .quiet => if f.driveGrant then own f s else (s.wakeSource true).answer .busy
  | .waking => if f.driveGrant then own f s else s.answer .busy
  | .quietPending => if f.driveGrant then own f s else (s.cancelledBy f).examine own f
  | .run => s.examine own f

/-- The first case that applies to a broadcast: only QUIET is taken, and nothing is answered. -/
def State.dealBroadcast (own : Owner) (f : Frame) (s : State) : State :=
  match s.lkp.part with
  | .starting => s
  | .quiet => s.wakeSource true
  | .waking => s
  | .quietPending =>
    let t := s.cancelledBy f
    if f.formOk && f.isQuiet then (own f t).state else t
  | .run => if f.formOk && f.isQuiet then (own f s).state else s

/-- A frame is received on a busy port: it wakes a QUIET part like any other, unless it is a drive GRANT lookup, and is not
examined further (R166, R176; log 11). -/
def State.receiveBusy (f : Frame) (s : State) : State :=
  if s.lkp.part = .quiet && !f.driveGrant then s.wakeSource true else s

/-- A frame waits on its port. -/
def State.putWaiting (f : Frame) (s : State) : State :=
  s.setPort f.port { s.portOf f.port with waiting := some f.caller }

/-- An addressed frame is received: it is in progress, or on a busy port it waits, or with a frame waiting already it is dropped
(R166). -/
def State.receiveAddressed (own : Owner) (f : Frame) (s : State) : State :=
  let p := s.portOf f.port
  if p.inProgress.isNone then State.finish f (s.dealAddressed own f)
  else if p.waiting.isNone then (s.receiveBusy f).putWaiting f
  else s.receiveBusy f

/-- A broadcast is received; on a busy port it is dropped (R166). -/
def State.receiveBroadcast (own : Owner) (f : Frame) (s : State) : State :=
  if (s.portOf f.port).inProgress.isNone then s.dealBroadcast own f else s.receiveBusy f

/-- A whole frame is received, and the block that `own` stands for takes it if it comes that far. -/
def State.deliver (own : Owner) (f : Frame) (s : State) : State :=
  let t := s.clearRx f.port
  match t.addressing f with
  | .ignored => t
  | .broadcast => t.receiveBroadcast own f
  | .addressed => t.receiveAddressed own f

/-- The receipt of a frame, `after` µs after the command before it. LKP receives while a reset is in force too: the part is
STARTING then (R165, R173; log 10). -/
def received (after : Nat) (own : Owner) (f : Frame) (s : State) : Host.Outcome State Fault Refusal :=
  .next ((s.elapse after).deliver own f)

/-! ### Characters (R164; log 22) -/

/-- 5 ms and one character of 260.4 µs, in twelfths of a µs: the longest time from the end of a character to the end of one
that still belongs to its frame. -/
def frameGapTwelfths : Nat := 63125

/-- A character ending now begins no more than 5 ms after the end of the last. -/
def Rx.joins (now : Nat) (r : Rx) : Bool := (now - r.lastEnd) * 12 ≤ frameGapTwelfths

/-- A character is ignored after a frame dropped at its header. -/
def Rx.ignores (now : Nat) (r : Rx) : Bool := r.skipping && r.joins now

/-- The bytes a character makes. -/
def Rx.bytesWith (now : Nat) (b : Byte) (r : Rx) : List Byte := if r.joins now then r.bytes ++ [b] else [b]

def byteAt (bs : List Byte) (i : Nat) : Byte := bs.getD i 0#8

def byteWord (hi lo : Byte) : Word := hi ++ lo

/-- Words from bytes, high byte first. -/
def wordsOf : List Byte → List Word
  | hi :: lo :: rest => byteWord hi lo :: wordsOf rest
  | _ => []

/-- The check of R164: the sum of the bytes, complemented. -/
def checkOf (bs : List Byte) : Word := ~~~ (BitVec.ofNat 16 (bs.map BitVec.toNat).sum)

/-- The parameter count in a header. -/
def countOf (bs : List Byte) : Nat := (byteAt bs 3).toNat

/-- A frame's bytes end at its two check bytes. -/
def isWhole (bs : List Byte) : Bool := 4 ≤ bs.length && bs.length = 8 + 2 * countOf bs

/-- The check of a whole frame matches. -/
def checkMatches (bs : List Byte) : Bool :=
  wordsOf (bs.drop (bs.length - 2)) = [checkOf (bs.take (bs.length - 2))]

/-- The frame that whole bytes spell (Table 11-1). -/
def frameOfBytes (p : Port) (bs : List Byte) : Frame :=
  { port := p, addr := byteAt bs 0, kind := byteAt bs 1, cls := byteAt bs 2,
    key := byteWord (byteAt bs 4) (byteAt bs 5), params := wordsOf ((bs.drop 6).take (2 * countOf bs)) }

def State.setRx (p : Port) (r : Rx) (s : State) : State := s.setPort p { s.portOf p with rx := r }

/-- A character with its stop bit, where it is not ignored: it joins or starts a frame; a count above 16 drops the frame at
its header, and a whole frame is received if its check matches. -/
def State.takeByte (ownerOf : Frame → Owner) (p : Port) (bs : List Byte) (s : State) : State :=
  if bs.length = 4 && 16 < countOf bs then s.setRx p ⟨[], s.time, true⟩
  else if isWhole bs then
    let t := s.setRx p ⟨[], s.time, false⟩
    if checkMatches bs then
      let f := frameOfBytes p bs
      t.deliver (ownerOf f) f
    else t
  else s.setRx p ⟨bs, s.time, false⟩

/-- A character ends on a port. -/
def State.takeCharacter (ownerOf : Frame → Owner) (p : Port) (b : Byte) (stopBit : Bool) (s : State) : State :=
  let r := (s.portOf p).rx
  if r.ignores s.time then s.setRx p { r with lastEnd := s.time }
  else if stopBit then s.takeByte ownerOf p (r.bytesWith s.time b)
  else s.setRx p ⟨[], s.time, false⟩

/-- The instant at which more than 5 ms have passed since the last character. -/
def Rx.gapEnds (r : Rx) : Nat := r.lastEnd + 5001

/-- More than 5 ms pass without a character: a partial frame is dropped and skipping ends. -/
def State.gapTimeout (p : Port) (s : State) : State :=
  let r := (s.portOf p).rx
  if r.bytes.isEmpty && !r.skipping then s
  else State.setRx p ⟨[], r.lastEnd, false⟩ { s with time := max s.time r.gapEnds }

/-! ### Answers -/

/-- High byte, then low byte. -/
def wordBytes (w : Word) : List Byte := [w.extractLsb' 8 8, w.extractLsb' 0 8]

/-- The bytes of an answer frame (Table 11-2). -/
def answerBytes (c : Caller) (a : Answer) : List Byte :=
  let body := [c.addr, c.kind, c.cls, BitVec.ofNat 8 a.outcome.code, BitVec.ofNat 8 a.words.length] ++
    a.words.flatMap wordBytes
  body ++ wordBytes (checkOf body)

/-- The answer frame being sent on a port. -/
def PortState.sending (p : PortState) : Option (List Byte) :=
  p.inProgress.bind (fun q => q.answer.map (answerBytes q.caller))

/-- The port once its answer is sent: a waiting frame is in progress and answered BUSY (R166). -/
def PortState.answered (p : PortState) : PortState :=
  { p with inProgress := p.waiting.map (fun c => ⟨c, some ⟨.busy, []⟩, false⟩), waiting := none }

/-- The last byte of the answer in progress is sent (R166, R173). -/
def State.answerSent (p : Port) (s : State) : State :=
  match (s.portOf p).inProgress with
  | none => s
  | some q =>
    if q.answer.isNone then s
    else if q.resetAfter then s.beginReset false 0 { s.rst with timer := s.timerFor commandResetTime }
    else s.setPort p (s.portOf p).answered

end Sys2Proof.Machine
end

