-- ==== Sys2Proof/Machine/Lookups.lean ====
section
/-! DEFINITION. The LOOKUP requests and what their owners answer. -/

namespace Sys2Proof.Machine

/-- A record by its slot (R92). -/
def State.plateauAt (s : State) (slot : Nat) : Option Plateau := s.spm.plateaus.find? (fun p => p.slot = slot)

/-- The tests of a request that names a slot, before the tests of its own rule (R95). -/
def State.withSlot (slot : Nat) (s : State) (f : Plateau → Reply) : Reply :=
  if 7 < slot then s.answer .range
  else
    match s.plateauAt slot with
    | none => s.answer .absent
    | some p => f p

/-- The position of a slot's record in the list (R92). -/
def State.positionOf (s : State) (slot : Nat) : Nat := s.spm.plateaus.findIdx (fun p => p.slot = slot) + 1

/-- LOOKUP PLAN at SPM (R101). -/
def ownLookupPlan (_ : Frame) (s : State) : Reply := s.answerWith .done s.planWords

/-- LOOKUP PLATEAU at SPM (R101). -/
def ownLookupPlateau (f : Frame) (s : State) : Reply :=
  s.withSlot f.key.toNat (fun p =>
    s.answerWith .done (p.words (s.positionOf p.slot) s.spm.grant.speed))

/-- LOOKUP GRANT at LKP, from the image; the drive's own lookup clears drive attention (R170). -/
def ownLookupGrant (f : Frame) (s : State) : Reply :=
  let t : State := if f.port = .drive then { s with lkp := { s.lkp with driveAtn := false } } else s
  t.answerWith .done s.lkp.image.words

/-- LOOKUP ESTIMATE at IBE with a key other than 1 and 2 (R54). -/
def ownLookupEstimate (f : Frame) (s : State) : Reply :=
  if f.key = 0#16 then s.answerWith .done (s.estimateRecord.words none) else s.answer .range

/-- The key of a delayed lookup (R54). -/
def delayedKeyOf (k : Word) : DelayedKey := if k = 2#16 then .ringSettled else .settled

/-- The latch is held by this key and this port (Table 3-5). -/
def Latch.heldBy (k : DelayedKey) (p : Port) : Latch → Bool
  | .free => false
  | .waiting k' p' _ => k' = k && p' = p
  | .ready k' p' _ _ _ => k' = k && p' = p

/-- A delayed lookup whose result does not wait READY for it, by the rest of Table 3-5. -/
def State.delayedLookup (k : DelayedKey) (p : Port) (s : State) : Reply :=
  if s.conditionOf k then s.answerWith .done (s.estimateRecord.words (some .met))
  else
    match s.ibe.latch with
    | .free =>
      State.answer { s with ibe := { s.ibe with latch := .waiting k p (s.time + giveUpTime) } } .pending
    | .waiting _ _ _ => s.answer .busy
    | .ready _ _ _ _ _ => s.answer .busy

/-- LOOKUP ESTIMATE with key 1 or 2 at IBE (Table 3-5). -/
def ownLookupEstimateDelayed (f : Frame) (s : State) : Reply :=
  let k := delayedKeyOf f.key
  if s.ibe.latch.heldBy k f.port then
    match s.ibe.latch with
    | .ready _ _ snapshot result _ =>
      State.answerWith { s with ibe := { s.ibe with latch := .free } } .done (snapshot.words (some result))
    | .waiting _ _ _ => s.answer .pending
    | .free => s.answer .pending
  else s.delayedLookup k f.port

/-- LOOKUP LOAD at IBE (R54). -/
def ownLookupLoad (_ : Frame) (s : State) : Reply := s.answerWith .done s.loadWords

/-- The tests of a request that names a band (R72, R73, R75). -/
def State.withBand (id : Nat) (s : State) (f : Band → Reply) : Reply :=
  if 5 < id then s.answer .range
  else
    match bandAt s.rbt.bands id with
    | none => s.answer .absent
    | some b => f b

/-- LOOKUP BAND at RBT (R75). -/
def ownLookupBand (f : Frame) (s : State) : Reply :=
  s.withBand f.key.toNat (fun b => s.answerWith .done b.words)

/-- LOOKUP CHAMBER at RIC (R147). -/
def ownLookupChamber (f : Frame) (s : State) : Reply :=
  if h : f.key.toNat < 4 then s.answerWith .done (s.chamberWords ⟨f.key.toNat, h⟩) else s.answer .range

/-- LOOKUP QUEUE at RIC (R147). -/
def ownLookupQueue (f : Frame) (s : State) : Reply :=
  match f.key.toNat with
  | 0 => s.answerWith .done s.queueWords
  | n + 1 =>
    if 7 < n then s.answer .range
    else
      match s.ric.queue[n]? with
      | none => s.answer .absent
      | some o => s.answerWith .done (o.words (n + 1))

/-- LOOKUP STATUS at LKP; the cycle port's lookup empties the notice set (R171, R172). -/
def ownLookupStatus (f : Frame) (s : State) : Reply :=
  let t : State :=
    match f.port with
    | .cycle => { s with lkp := { s.lkp with notices := NoticeSet.empty } }
    | .drive => s
  t.answerWith .done (s.statusWords f.port)

/-- LOOKUP CAL at CLS (R182). -/
def ownLookupCal (f : Frame) (s : State) : Reply :=
  if f.key = 0#16 then s.answerWith .done s.cls.summaryWords
  else
    match specOf f.key.toNat, s.cls.item f.key.toNat with
    | some spec, some i => s.answerWith .done (s.cls.itemWords spec i)
    | _, _ => s.answer .absent

/-- LOOKUP_PLAN. -/
def execLookupPlan (after : Nat) (r : Request) (s : State) : Host.Outcome State Fault Refusal :=
  received after ownLookupPlan (frameOf 1#8 1#8 r) s

/-- LOOKUP_PLATEAU. -/
def execLookupPlateau (after : Nat) (r : Request) (s : State) : Host.Outcome State Fault Refusal :=
  received after ownLookupPlateau (frameOf 1#8 2#8 r) s

/-- LOOKUP_GRANT. -/
def execLookupGrant (after : Nat) (r : Request) (s : State) : Host.Outcome State Fault Refusal :=
  received after ownLookupGrant (frameOf 1#8 3#8 r) s

/-- LOOKUP_ESTIMATE. -/
def execLookupEstimate (after : Nat) (r : Request) (s : State) : Host.Outcome State Fault Refusal :=
  received after ownLookupEstimate (frameOf 1#8 4#8 r) s

/-- LOOKUP_ESTIMATE_DELAYED. -/
def execLookupEstimateDelayed (after : Nat) (r : Request) (s : State) : Host.Outcome State Fault Refusal :=
  received after ownLookupEstimateDelayed (frameOf 1#8 4#8 r) s

/-- LOOKUP_LOAD. -/
def execLookupLoad (after : Nat) (r : Request) (s : State) : Host.Outcome State Fault Refusal :=
  received after ownLookupLoad (frameOf 1#8 8#8 r) s

/-- LOOKUP_BAND. -/
def execLookupBand (after : Nat) (r : Request) (s : State) : Host.Outcome State Fault Refusal :=
  received after ownLookupBand (frameOf 1#8 5#8 r) s

/-- LOOKUP_CHAMBER. -/
def execLookupChamber (after : Nat) (r : Request) (s : State) : Host.Outcome State Fault Refusal :=
  received after ownLookupChamber (frameOf 1#8 6#8 r) s

/-- LOOKUP_QUEUE. -/
def execLookupQueue (after : Nat) (r : Request) (s : State) : Host.Outcome State Fault Refusal :=
  received after ownLookupQueue (frameOf 1#8 7#8 r) s

/-- LOOKUP_STATUS. -/
def execLookupStatus (after : Nat) (r : Request) (s : State) : Host.Outcome State Fault Refusal :=
  received after ownLookupStatus (frameOf 1#8 9#8 r) s

/-- LOOKUP_CAL. -/
def execLookupCal (after : Nat) (r : Request) (s : State) : Host.Outcome State Fault Refusal :=
  received after ownLookupCal (frameOf 1#8 10#8 r) s

end Sys2Proof.Machine
end

