-- ==== Sys2Proof/Machine/PlanRequests.lean ====
section
/-! DEFINITION. The requests and commands of the spin plan (6.2, 6.3). -/

namespace Sys2Proof.Machine

/-- DONE, or ADJUSTED where a value was clamped or merged (Table 9-4). -/
def adjustedIf (b : Bool) : Outcome := if b then .adjusted else .done

/-! ### Building the plan -/

/-- The lowest FREE plateau slot (R92). -/
def freePlateauSlot (ps : List Plateau) : Nat :=
  ((List.range Config.plateauSlots).find? (fun n => ps.all (fun p => p.slot ≠ n))).getD 0

/-- A record as APPEND makes it (R96). -/
def Plateau.fresh (slot smax : Nat) (v : PlateauParams) : Plateau :=
  Plateau.give smax v
    { slot := slot, requested := 0, target := 0, dwell := 0, floor := none, autoBalance := v.autoBalance = 1,
      state := .queued, elapsed := none, clamped := false, derated := false, bandAdjusted := false }

/-- The plan becomes another state, and PLAN_STATE is posted where that is a change (R109). -/
def State.planBecomes (p : PlanState) (s : State) : State :=
  if s.spm.plan = p then s else State.post .planState { s with spm := { s.spm with plan := p } }

/-- What an APPEND does to the plan state: an EMPTY plan is LOADED, any other goes on untouched (R96, R109). -/
def State.planAppended (s : State) : State :=
  if s.spm.plan = .empty then (s.planBecomes .loaded).refreshGrant.planReport else s

/-- APPEND at SPM (R96). -/
def ownAppend (f : Frame) (s : State) : Reply :=
  let v := plateauParams f.params
  if s.spm.plan = .complete || s.spm.plan = .aborted then s.answer .access
  else if !v.fits then s.answer .range
  else if Config.plateauSlots ≤ s.spm.plateaus.length then s.answer .full
  else
    let slot := freePlateauSlot s.spm.plateaus
    let t := { s with spm := { s.spm with plateaus := s.spm.plateaus ++ [Plateau.fresh slot s.smax v] } }
    t.planAppended.answerWith (adjustedIf (v.adjusted s.smax)) [word slot]

/-- The records with the one in a slot changed. -/
def updateSlot (slot : Nat) (f : Plateau → Plateau) (ps : List Plateau) : List Plateau :=
  ps.map (fun p => if p.slot = slot then f p else p)

/-- The records without the one in a slot (R92). -/
def removeSlot (slot : Nat) (ps : List Plateau) : List Plateau := ps.filter (fun p => p.slot ≠ slot)

/-- AMEND of a QUEUED plateau (R97). -/
def State.amendQueued (slot : Nat) (v : PlateauParams) (s : State) : Reply :=
  if !v.fits then s.answer .range
  else
    let change (p : Plateau) : Plateau := { p.give s.smax v with autoBalance := v.autoBalance = 1 }
    State.answer { s with spm := { s.spm with plateaus := updateSlot slot change s.spm.plateaus } }
      (adjustedIf (v.adjusted s.smax))

/-- A plateau whose target in force changed while it was DWELLING is RAMPING again, and the dwell tick timer stops with that
(R98, step 3; R118). -/
def State.rampAgain (old : Plateau) (s : State) : State :=
  if old.state = .active .dwelling && s.active.any (fun p => p.target ≠ old.target) then
    let t := s.updateActive (Plateau.withPhase .ramping)
    { t with spm := { t.spm with arrival := 0, dwellTimer := none } }
  else s

/-- AMEND of the ACTIVE plateau, once its tests have passed (R98). -/
def State.amendTaken (p : Plateau) (v : PlateauParams) (s : State) : State :=
  let t := s.updateActive (Plateau.give s.smax v)
  let ended := t.active.any (fun q => q.dwell ≠ 0 && q.elapsed.any (fun e => q.dwell ≤ e))
  if ended then t.endActive (.done .expired)
  else
    let u := t.rampAgain p
    if u.spm.plan = .running then u.derive .fresh else u

/-- AMEND of the ACTIVE plateau (R98). -/
def State.amendActive (p : Plateau) (v : PlateauParams) (s : State) : Reply :=
  if v.autoBalance ≠ (if p.autoBalance then 1 else 0) then s.answer .access
  else if !v.fits then s.answer .range
  else State.answer ((s.amendTaken p v).planReport) (adjustedIf (v.adjusted s.smax))

/-- AMEND PLATEAU at SPM (R97, R98). -/
def ownAmendPlateau (f : Frame) (s : State) : Reply :=
  let v := plateauParams f.params
  s.withSlot f.key.toNat (fun p =>
    match p.state with
    | .queued => s.amendQueued p.slot v
    | .active _ => s.amendActive p v
    | .done _ => s.answer .access
    | .skipped _ => s.answer .access)

/-- WITHDRAW of a QUEUED plateau (R99). -/
def State.withdrawQueued (slot : Nat) (s : State) : State :=
  let t := { s with spm := { s.spm with plateaus := removeSlot slot s.spm.plateaus } }
  if t.spm.plan = .loaded && t.spm.plateaus.isEmpty then (t.planBecomes .empty).refreshGrant.planReport else t

/-- WITHDRAW at SPM (R99). -/
def ownWithdraw (f : Frame) (s : State) : Reply :=
  s.withSlot f.key.toNat (fun p =>
    match p.state with
    | .queued => State.answer (s.withdrawQueued p.slot) .done
    | .active _ => State.answer ((s.endActive (.skipped .withdrawn)).planReport) .done
    | .done _ => s.answer .access
    | .skipped _ => s.answer .access)

/-- A DONE or SKIPPED record. -/
def Plateau.isOver (p : Plateau) : Bool := !p.isQueued && !p.isActive

/-- RETIRE PLATEAU at SPM (R100). -/
def ownRetirePlateau (f : Frame) (s : State) : Reply :=
  s.withSlot f.key.toNat (fun p =>
    if p.isOver then
      State.answer { s with spm := { s.spm with plateaus := removeSlot p.slot s.spm.plateaus } } .done
    else s.answer .access)

/-! ### Running the plan -/

/-- The work of a START that is taken (R102, R36). -/
def State.startPlan (s : State) : State :=
  let running := State.post .planState { s with spm := { s.spm with plan := .running } }
  (running.estimatorStart.giveUpdate.ceilingAndGrant.activateNext).planReport

/-- START at SPM (R102). -/
def ownStart (_ : Frame) (s : State) : Reply :=
  if s.spm.plan ≠ .loaded then s.answer .access
  else if !s.tmo.lid then s.answer .access
  else if s.tripped then s.answer .access
  else if s.spm.restartHold then s.answer .busy
  else State.answer s.startPlan .done

/-- PAUSE at SPM (R104). -/
def ownPause (_ : Frame) (s : State) : Reply :=
  if s.spm.plan = .running then State.answer ((s.pausePlan .partner).refreshGrant.planReport) .done
  else s.answer .access

/-- The plan is PAUSED. -/
def PlanState.isPaused : PlanState → Bool
  | .paused _ => true
  | _ => false

/-- The work of a RESUME that is taken (R104). -/
def State.resumePlan (s : State) : State :=
  let t := State.post .planState { s with spm := { s.spm with plan := .running } }
  ((t.updateActive (Plateau.withPhase .ramping)).derive .fresh).planReport

/-- RESUME at SPM (R104). -/
def ownResume (_ : Frame) (s : State) : Reply :=
  if s.spm.plan.isPaused && s.tmo.lid && !s.tripped then State.answer s.resumePlan .done else s.answer .access

/-- NEXT at SPM (R105). -/
def ownNext (f : Frame) (s : State) : Reply :=
  s.withSlot (f.param 0) (fun p =>
    if s.spm.plan = .running && p.isActive then State.answer ((s.endActive (.done .next)).planReport) .done
    else s.answer .access)

/-- ABORT may be taken (R106). -/
def PlanState.abortable : PlanState → Bool
  | .loaded => true
  | p => p.underway

/-- A record at an ABORT (R106). -/
def Plateau.abort (p : Plateau) : Plateau := if p.isOver then p else { p with state := .skipped .aborted }

/-- The work of an ABORT that is taken (R106). -/
def State.abortPlan (s : State) : State :=
  let t := { s.cancelOrders with spm := { s.spm with
    plan := .aborted, plateaus := s.spm.plateaus.map Plateau.abort, derived := none, arrival := 0,
    dwellTimer := none } }
  ((t.post .planState).post .plateauEnd).refreshGrant.planReport

/-- ABORT at SPM (R106). -/
def ownAbort (_ : Frame) (s : State) : Reply :=
  if s.spm.plan.abortable then State.answer s.abortPlan .done else s.answer .access

/-- The work of a CLEAR that is taken (R107, R74). -/
def State.clearPlan (s : State) : State :=
  let t := State.planBecomes .empty { s with spm := { s.spm with plateaus := [] } }
  (t.changeBands (clearLearned s.rbt.bands)).refreshGrant.planReport

/-- CLEAR at SPM (R107). -/
def ownClear (_ : Frame) (s : State) : Reply :=
  if s.spm.plan.underway then s.answer .access else State.answer s.clearPlan .done

/-- GUARD at SPM (R88). -/
def ownGuard (f : Frame) (s : State) : Reply :=
  match guardOf (f.param 0) with
  | none => s.answer .range
  | some g =>
    if g = .test && !s.cls.unlocked then s.answer .protect else State.answer (s.changeGuard g) .done

/-! ### Rows -/

/-- APPEND. -/
def execAppend (after : Nat) (r : Request) (s : State) : Host.Outcome State Fault Refusal :=
  received after ownAppend (frameOf 2#8 2#8 r) s

/-- AMEND_PLATEAU. -/
def execAmendPlateau (after : Nat) (r : Request) (s : State) : Host.Outcome State Fault Refusal :=
  received after ownAmendPlateau (frameOf 3#8 2#8 r) s

/-- WITHDRAW. -/
def execWithdraw (after : Nat) (r : Request) (s : State) : Host.Outcome State Fault Refusal :=
  received after ownWithdraw (frameOf 4#8 2#8 r) s

/-- RETIRE_PLATEAU. -/
def execRetirePlateau (after : Nat) (r : Request) (s : State) : Host.Outcome State Fault Refusal :=
  received after ownRetirePlateau (frameOf 5#8 2#8 r) s

/-- START. -/
def execStart (after : Nat) (r : CommandRequest) (s : State) : Host.Outcome State Fault Refusal :=
  received after ownStart (commandFrame 1#8 1#16 r) s

/-- PAUSE. -/
def execPause (after : Nat) (r : CommandRequest) (s : State) : Host.Outcome State Fault Refusal :=
  received after ownPause (commandFrame 1#8 2#16 r) s

/-- RESUME. -/
def execResume (after : Nat) (r : CommandRequest) (s : State) : Host.Outcome State Fault Refusal :=
  received after ownResume (commandFrame 1#8 3#16 r) s

/-- NEXT. -/
def execNext (after : Nat) (r : CommandRequest) (s : State) : Host.Outcome State Fault Refusal :=
  received after ownNext (commandFrame 1#8 4#16 r) s

/-- ABORT. -/
def execAbort (after : Nat) (r : CommandRequest) (s : State) : Host.Outcome State Fault Refusal :=
  received after ownAbort (commandFrame 1#8 5#16 r) s

/-- CLEAR. -/
def execClear (after : Nat) (r : CommandRequest) (s : State) : Host.Outcome State Fault Refusal :=
  received after ownClear (commandFrame 1#8 6#16 r) s

/-- GUARD. -/
def execGuard (after : Nat) (r : CommandRequest) (s : State) : Host.Outcome State Fault Refusal :=
  received after ownGuard (commandFrame 9#8 10#16 r) s

end Sys2Proof.Machine
end

