-- ==== Sys2Proof/Machine/BandRequests.lean ====
section
/-! DEFINITION. The requests of the resonance band table (4.4, 4.6) and of the load class (3.1). -/

namespace Sys2Proof.Machine

/-- The tests of a declaration (R66). -/
def declarationFits (sdist lower upper peak : Nat) : Bool :=
  sdist + 30 ≤ lower && upper ≤ 1200 && lower < upper && upper - lower ≤ 200 && between 1 9999 peak

/-- A declaration as a band of origin DECLARED. -/
def declaredBand (lower upper peak : Nat) : Band := ⟨0, lower, upper, peak, .declared, 0, false, false⟩

/-- DECLARE at RBT (R66, R67). -/
def ownDeclare (f : Frame) (s : State) : Reply :=
  if declarationFits s.sdist (f.param 0) (f.param 1) (f.param 2) then
    match placeBand (declaredBand (f.param 0) (f.param 1) (f.param 2)) s.rbt.bands with
    | (bs, .merged id) => (s.changeBands bs).answerWith .adjusted [word id]
    | (bs, .placed id) => (s.changeBands bs).answerWith .done [word id]
    | (_, .full) => s.answer .full
  else s.answer .range

/-- RETIRE BAND at RBT (R72). -/
def ownRetireBand (f : Frame) (s : State) : Reply :=
  s.withBand f.key.toNat (fun b =>
    if b.origin = .calibrated then s.answer .protect
    else State.answer (s.changeBands (removeBand b.id s.rbt.bands)) .done)

/-- PIN at RBT (R73). -/
def ownPin (f : Frame) (s : State) : Reply :=
  if 1 < f.param 0 then s.answer .range
  else
    s.withBand f.key.toNat (fun b =>
      if b.origin = .learned then
        State.answer (s.changeBands (putBand { b with pinned := f.param 0 = 1 } s.rbt.bands)) .done
      else s.answer .access)

/-- The load source an AMEND of LOAD asks for: a declared class, or none for AUTO (R35). -/
def loadSourceOf (n : Nat) : Option (Option (Fin 4)) :=
  if h : n < 4 then some (some ⟨n, h⟩) else if n = 0x100 then some none else none

/-- The load record after an AMEND (R35). -/
def Ibe.withSource (source : Option (Fin 4)) (b : Ibe) : Ibe :=
  match source with
  | some c => { b with declared := some c }
  | none => { b with declared := none, latched := none, sagAbsent := false }

/-- The work of an AMEND LOAD that is taken (R34, R35). -/
def State.amendLoad (source : Option (Fin 4)) (s : State) : State :=
  let t := { s with ibe := s.ibe.withSource source }
  if t.tableClass = s.tableClass then t else t.restartSmoothing.handUpdate

/-- AMEND LOAD at IBE (R35). -/
def ownAmendLoad (f : Frame) (s : State) : Reply :=
  if s.spm.plan.underway then s.answer .access
  else
    match loadSourceOf (f.param 0) with
    | none => s.answer .range
    | some source => State.answer (s.amendLoad source) .done

/-- DECLARE. -/
def execDeclare (after : Nat) (r : Request) (s : State) : Host.Outcome State Fault Refusal :=
  received after ownDeclare (frameOf 8#8 5#8 r) s

/-- RETIRE_BAND. -/
def execRetireBand (after : Nat) (r : Request) (s : State) : Host.Outcome State Fault Refusal :=
  received after ownRetireBand (frameOf 5#8 5#8 r) s

/-- PIN. -/
def execPin (after : Nat) (r : Request) (s : State) : Host.Outcome State Fault Refusal :=
  received after ownPin (frameOf 9#8 5#8 r) s

/-- AMEND_LOAD. -/
def execAmendLoad (after : Nat) (r : Request) (s : State) : Host.Outcome State Fault Refusal :=
  received after ownAmendLoad (frameOf 3#8 8#8 r) s

end Sys2Proof.Machine
end

