-- ==== Sys2Proof/Machine/RingRequests.lean ====
section
/-! DEFINITION. The requests and commands of the balance ring: INJECT, FLUSH, CANCEL (7.3, 7.7). -/

namespace Sys2Proof.Machine

/-- An INJECT as it is taken, pair by pair (R132). -/
structure Injection where
  queue : List Order
  /-- The taken grams of each pair so far, the last pair first. -/
  taken : List Nat
  adjusted : Bool
  /-- A pair has found no room (test 6). -/
  noRoom : Bool
  deriving DecidableEq, Repr

/-- The chamber of a pair that has passed test 3. -/
def chamberOf (n : Nat) : Fin 4 := Fin.ofNat 4 n

/-- A pair's order merges with the tail (R132, step 2). -/
def mergesTail (j : Fin 4) (q : List Order) : Bool :=
  (q.getLast?).any (fun t => t.state = .waiting && t.chamber = j && t.origin = .partner)

/-- The queue with the taken grams merged into the tail (R132, step 2). -/
def mergeTail (grams : Nat) (clamped : Bool) (q : List Order) : List Order :=
  match q.getLast? with
  | none => q
  | some t => q.dropLast ++ [{ t with requested := t.requested + grams, clamped := t.clamped || clamped }]

/-- A chamber's room against a queue (R129). -/
def roomFor (capacity : Nat) (contents : Option (Four Nat)) (q : List Order) (j : Fin 4) : Nat :=
  match contents with
  | none => 0
  | some c => capacity - c.get j / 1000 - queuedGrams q j

/-- One pair (R132). -/
def Injection.pair (capacity : Nat) (contents : Option (Four Nat)) (v : Injection) (p : Pair) : Injection :=
  let j := chamberOf p.chamber
  let room := roomFor capacity contents v.queue j
  let grams := min p.grams room
  let clamped := decide (room < p.grams)
  let merged := mergesTail j v.queue
  { queue := if merged then mergeTail grams clamped v.queue
      else v.queue ++ [⟨j, grams, 0, .partner, .waiting, clamped⟩]
    taken := grams :: v.taken
    adjusted := v.adjusted || clamped || merged
    noRoom := v.noRoom || room = 0 }

/-- The pairs of an INJECT, one after another. -/
def State.inject (ps : List Pair) (s : State) : Injection :=
  ps.foldl (Injection.pair s.capacity s.ric.contents) ⟨s.ric.queue, [], false, false⟩

/-- The first failing test of Table 7-6. -/
def State.injectRefused (ps : List Pair) (s : State) : Option Outcome :=
  let v := s.inject ps
  if s.ric.flush then some .busy
  else if s.cls.defaulted then some .access
  else if ps.any (fun p => 3 < p.chamber) then some .range
  else if s.ric.contents.isNone then some .access
  else if ps.any (fun p => p.grams = 0) then some .range
  else if v.noRoom then some .full
  else if Config.queueEntries < v.queue.length then some .full
  else none

/-- The work of an INJECT that is taken (R132, R133). -/
def State.injectTaken (v : Injection) (s : State) : State :=
  State.ordersTaken
    { s with ric := { s.ric with
        queue := v.queue, bound := if s.ric.queue.isEmpty then s.capture else s.ric.bound } }

/-- INJECT at RIC (R131, R132). -/
def ownInject (f : Frame) (s : State) : Reply :=
  let ps := pairsOf f.params
  match s.injectRefused ps with
  | some o => s.answer o
  | none =>
    let v := s.inject ps
    (s.injectTaken v).answerWith (adjustedIf v.adjusted) (v.taken.reverse.map word ++ [word v.queue.length])

/-- FLUSH at RIC (R145). -/
def ownFlush (_ : Frame) (s : State) : Reply :=
  State.answer { s with ric := { s.ric with flush := s.ric.flush || !s.ric.queue.isEmpty } } .done

/-- CANCEL at RIC (R146). -/
def ownCancel (_ : Frame) (s : State) : Reply := State.answer s.cancelOrders .done

/-- INJECT. -/
def execInject (after : Nat) (r : Request) (s : State) : Host.Outcome State Fault Refusal :=
  received after ownInject (frameOf 7#8 7#8 r) s

/-- FLUSH. -/
def execFlush (after : Nat) (r : CommandRequest) (s : State) : Host.Outcome State Fault Refusal :=
  received after ownFlush (commandFrame 7#8 8#16 r) s

/-- CANCEL. -/
def execCancel (after : Nat) (r : CommandRequest) (s : State) : Host.Outcome State Fault Refusal :=
  received after ownCancel (commandFrame 7#8 9#16 r) s

end Sys2Proof.Machine
end

