-- ==== Sys2Proof/Machine/PartRequests.lean ====
section
/-! DEFINITION. The commands of the part itself: CLEAR_TRIP, QUIET, RESET (8.3, 9.5, 9.6), and the running out of the quiet
countdown and of the wake timer. -/

namespace Sys2Proof.Machine

/-- CLEAR_TRIP at TMO (R158). -/
def ownClearTrip (_ : Frame) (s : State) : Reply :=
  if !s.tripped then s.answer .done
  else if !s.rtb.atRest then s.answer .busy
  else if s.tmo.strike then s.answer .busy
  else State.answer s.clearTrip .done

/-- The work of a QUIET that is taken (R174). -/
def State.quietTaken (n : Nat) (s : State) : State :=
  State.setPart .quietPending { s with lkp := { s.lkp with quietTimer := s.timerFor (n * quietUnit) } }

/-- QUIET at LKP (R174). -/
def ownQuiet (f : Frame) (s : State) : Reply :=
  let n := f.param 0
  if n < 1 || 7 < n then s.answer .range
  else if s.spm.plan.underway then s.answer .busy
  else if s.rtb.speedState = .turning then s.answer .busy
  else if s.tripped then s.answer .busy
  else State.answer (s.quietTaken n) .done

/-- RESET at LKP: the command reset follows the answer (R173). -/
def ownReset (_ : Frame) (s : State) : Reply := ⟨s, some ⟨.done, []⟩, true⟩

/-- CLEAR_TRIP. -/
def execClearTrip (after : Nat) (r : CommandRequest) (s : State) : Host.Outcome State Fault Refusal :=
  received after ownClearTrip (commandFrame 9#8 7#16 r) s

/-- QUIET. -/
def execQuiet (after : Nat) (r : CommandRequest) (s : State) : Host.Outcome State Fault Refusal :=
  received after ownQuiet (commandFrame 9#8 11#16 r) s

/-- RESET. -/
def execReset (after : Nat) (r : CommandRequest) (s : State) : Host.Outcome State Fault Refusal :=
  received after ownReset (commandFrame 9#8 13#16 r) s

/-- QUIET_COUNTDOWN_EXPIRY (R175). -/
def execQuietCountdownExpiry (s : State) : Host.Outcome State Fault Refusal :=
  onExpiry s.lkp.quietTimer
    (fun t => State.setPart .quiet { t with lkp := { t.lkp with quietTimer := none } }) s

/-- WAKE_TIMER_EXPIRY (R177). -/
def execWakeTimerExpiry (s : State) : Host.Outcome State Fault Refusal :=
  onExpiry s.lkp.wakeTimer
    (fun t => (State.setPart .run { t with lkp := { t.lkp with wakeTimer := none } }).post .wake) s

end Sys2Proof.Machine
end

