-- ==== Sys2Proof/Machine/CalRequests.lean ====
section
/-! DEFINITION. The requests of the calibration store: CAL_WRITE, KEY_VERIFY, LOCK (10.2, 10.3), and the end of programming. -/

namespace Sys2Proof.Machine

/-- CAL_WRITE at CLS: a write that is taken is answered when its programming ends (R180, R181). -/
def ownCalWrite (f : Frame) (s : State) : Reply :=
  match specOf f.key.toNat, s.cls.item f.key.toNat with
  | some spec, some i =>
    let ws := f.params.take spec.words
    if s.spm.plan.underway then s.answer .access
    else
      match s.cls.writeRefused spec i ws with
      | some o => s.answer o
      | none => ⟨s.takeWrite spec.num ws, none, false⟩
  | _, _ => s.answer .absent

/-- The service key, where item 6 is STORED (R183). -/
def Cls.key (c : Cls) : Option (List Word) :=
  match c.item 6 with
  | some i => if i.source = .stored then some i.held else none
  | none => none

/-- KEY_VERIFY at CLS (R183). -/
def ownKeyVerify (f : Frame) (s : State) : Reply :=
  match s.cls.key with
  | none => s.answer .access
  | some key =>
    if s.cls.lockout then s.answer .protect
    else if f.params = key then State.answer { s with cls := { s.cls with unlocked := true } } .done
    else State.answer { s with cls := { s.cls with lockout := true } } .protect

/-- Service becomes LOCKED; guard TEST falls back to the default guard item (R89, R184). -/
def State.lockService (s : State) : State :=
  let t := { s with cls := { s.cls with unlocked := false } }
  if s.spm.guard = .test then t.changeGuard t.defaultGuard else t

/-- LOCK at CLS (R184). -/
def ownLock (_ : Frame) (s : State) : Reply := State.answer s.lockService .done

/-- A request whose answer was held back is answered DONE. -/
def InProgress.complete (q : InProgress) : InProgress :=
  { q with answer := some (q.answer.getD ⟨.done, []⟩) }

/-- Programming ends (R181). -/
def State.programmingDone (s : State) : State :=
  match s.cls.programming with
  | none => s
  | some p =>
    { s with
      cls := s.cls.programmed p
      lkp := { s.lkp with cycle :=
        { s.lkp.cycle with inProgress := s.lkp.cycle.inProgress.map InProgress.complete } } }

/-- CAL_WRITE. -/
def execCalWrite (after : Nat) (r : Request) (s : State) : Host.Outcome State Fault Refusal :=
  received after ownCalWrite (frameOf 10#8 10#8 r) s

/-- KEY_VERIFY. -/
def execKeyVerify (after : Nat) (r : Request) (s : State) : Host.Outcome State Fault Refusal :=
  received after ownKeyVerify (frameOf 11#8 10#8 r) s

/-- LOCK. -/
def execLock (after : Nat) (r : CommandRequest) (s : State) : Host.Outcome State Fault Refusal :=
  received after ownLock (commandFrame 10#8 12#16 r) s

/-- PROGRAMMING_DONE (R181). -/
def execProgrammingDone (after : Nat) (s : State) : Host.Outcome State Fault Refusal :=
  fromOutside after State.programmingDone s

end Sys2Proof.Machine
end

