-- ==== Sys2Proof/WellFormed.lean ====
section
/-! DEFINITION. The checks a command passes to be a command of the table at all. -/

namespace Sys2Proof

/-- A frame's header counts at most 16 parameter words (R164). -/
def paramsFit (ps : List Word) : Bool := ps.length ≤ 16

/-- Each block takes an event once; a block left out of the order takes it after those named. -/
def orderFits (order : List Taker) : Bool := order.Nodup

/-- The key of the two ESTIMATE rows of the table: 1 and 2 go to the delayed-lookup latch (R54). -/
def isDelayedKey (k : Word) : Bool := k = 1#16 || k = 2#16

def Request.fits (r : Request) : Bool := paramsFit r.params

def CommandRequest.fits (r : CommandRequest) : Bool := paramsFit r.params

/-- Whether a term of `Instr` is a command of the table. -/
def Instr.wellFormed (i : Instr) : Bool :=
  match i with
  | .powerOn _ _ => true
  | .resetNAsserted _ _ => true
  | .resetNNegated _ => true
  | .resetTimerExpiry => true
  | .endOfStartUp => true
  | .indexEdge _ _ order => orderFits order
  | .slotEvent _ => true
  | .restTimerExpiry order => orderFits order
  | .indexOverdue => true
  | .staticTimerExpiry _ => true
  | .giveUpTimerExpiry => true
  | .discardTimerExpiry => true
  | .dwellTick => true
  | .openInstant _ => true
  | .closeInstant => true
  | .bleedTick => true
  | .unknownTimerExpiry => true
  | .strikePinChange _ _ => true
  | .strikeDebounceExpiry => true
  | .lidlkPinChange _ _ => true
  | .lidDebounceExpiry => true
  | .frameGapTimeout _ => true
  | .answerSent _ _ => true
  | .quietCountdownExpiry => true
  | .wakeTimerExpiry => true
  | .programmingDone _ => true
  | .lookupPlan _ r => r.fits
  | .lookupPlateau _ r => r.fits
  | .lookupGrant _ r => r.fits
  | .lookupEstimate _ r => r.fits && !isDelayedKey r.key
  | .lookupEstimateDelayed _ r => r.fits && isDelayedKey r.key
  | .lookupLoad _ r => r.fits
  | .lookupBand _ r => r.fits
  | .lookupChamber _ r => r.fits
  | .lookupQueue _ r => r.fits
  | .lookupStatus _ r => r.fits
  | .lookupCal _ r => r.fits
  | .append _ r => r.fits
  | .amendPlateau _ r => r.fits
  | .amendLoad _ r => r.fits
  | .withdraw _ r => r.fits
  | .retirePlateau _ r => r.fits
  | .retireBand _ r => r.fits
  | .declare _ r => r.fits
  | .pin _ r => r.fits
  | .inject _ r => r.fits
  | .start _ r => r.fits
  | .pause _ r => r.fits
  | .resume _ r => r.fits
  | .next _ r => r.fits
  | .abort _ r => r.fits
  | .clear _ r => r.fits
  | .guard _ r => r.fits
  | .flush _ r => r.fits
  | .cancel _ r => r.fits
  | .clearTrip _ r => r.fits
  | .quiet _ r => r.fits
  | .reset _ r => r.fits
  | .lock _ r => r.fits
  | .calWrite _ r => r.fits
  | .keyVerify _ r => r.fits
  | .characterReceived _ _ _ _ => true

end Sys2Proof
end

