-- ==== Sys2Proof/Machine/LinkEvents.lean ====
section
/-! DEFINITION. The events of the ports themselves: characters, gaps, sent answers; and the owner of every request, for a frame
that comes as characters. -/

namespace Sys2Proof.Machine

/-- An owner for a form that names none; no frame that passes the form check comes here. -/
def ownNothing (_ : Frame) (s : State) : Reply := s.answer .access

/-- The owner of a LOOKUP by its class (Table 9-2). -/
def lookupOwner (f : Frame) : Owner :=
  match f.cls.toNat with
  | 1 => ownLookupPlan
  | 2 => ownLookupPlateau
  | 3 => ownLookupGrant
  | 4 => if isDelayedKey f.key then ownLookupEstimateDelayed else ownLookupEstimate
  | 5 => ownLookupBand
  | 6 => ownLookupChamber
  | 7 => ownLookupQueue
  | 8 => ownLookupLoad
  | 9 => ownLookupStatus
  | 10 => ownLookupCal
  | _ => ownNothing

/-- The owner of a COMMAND by its command code (Table 9-3). -/
def commandOwner (f : Frame) : Owner :=
  match f.key.toNat with
  | 1 => ownStart
  | 2 => ownPause
  | 3 => ownResume
  | 4 => ownNext
  | 5 => ownAbort
  | 6 => ownClear
  | 7 => ownClearTrip
  | 8 => ownFlush
  | 9 => ownCancel
  | 10 => ownGuard
  | 11 => ownQuiet
  | 12 => ownLock
  | 13 => ownReset
  | _ => ownNothing

/-- The owner of a request by its kind and class (Table 9-2). -/
def ownerOf (f : Frame) : Owner :=
  match f.kind.toNat with
  | 1 => lookupOwner f
  | 2 => ownAppend
  | 3 => if f.cls = 2#8 then ownAmendPlateau else ownAmendLoad
  | 4 => ownWithdraw
  | 5 => if f.cls = 2#8 then ownRetirePlateau else ownRetireBand
  | 6 => commandOwner f
  | 7 => ownInject
  | 8 => ownDeclare
  | 9 => ownPin
  | 10 => ownCalWrite
  | 11 => ownKeyVerify
  | _ => ownNothing

/-- CHARACTER_RECEIVED (R164). -/
def execCharacterReceived (after : Nat) (port : Port) (byte : Byte) (stopBit : Bool) (s : State) :
    Host.Outcome State Fault Refusal :=
  .next ((s.elapse after).takeCharacter ownerOf port byte stopBit)

/-- FRAME_GAP_TIMEOUT (R164). -/
def execFrameGapTimeout (port : Port) (s : State) : Host.Outcome State Fault Refusal := .next (s.gapTimeout port)

/-- ANSWER_SENT (R166, R173). -/
def execAnswerSent (after : Nat) (port : Port) (s : State) : Host.Outcome State Fault Refusal :=
  .next ((s.elapse after).answerSent port)

end Sys2Proof.Machine
end

