-- ==== Sys2Proof/Machine/PinEvents.lean ====
section
/-! DEFINITION. The STRIKE and LIDLK pins and their debounce (8.1, 8.4). -/

namespace Sys2Proof.Machine

/-- The debounce timer after a pin takes a level: it starts when the pin comes to differ from the state and stops when it
returns (R151). -/
def State.debounce (level state : Bool) (timer : Option Nat) (s : State) : Option Nat :=
  if level = state then none else timer.orElse (fun _ => s.timerFor debounceTime)

/-- STRIKE_PIN_CHANGE (R151). TMO observes no pin while a reset is in force (R163). -/
def execStrikePinChange (after : Nat) (level : Bool) (s : State) : Host.Outcome State Fault Refusal :=
  let t := { s.elapse after with strikePin := level }
  .next
    (if t.inReset then t
     else { t with tmo := { t.tmo with strikeTimer := t.debounce level t.tmo.strike t.tmo.strikeTimer } })

/-- LIDLK_PIN_CHANGE (R160). -/
def execLidlkPinChange (after : Nat) (level : Bool) (s : State) : Host.Outcome State Fault Refusal :=
  let t := { s.elapse after with lidPin := level }
  .next
    (if t.inReset then t
     else { t with tmo := { t.tmo with lidTimer := t.debounce level t.tmo.lid t.tmo.lidTimer } })

/-- The strike state takes the pin's level; a strike assertion finds STRIKE and is reported to LKP (R151). -/
def State.strikeSettles (s : State) : State :=
  let t := { s with tmo := { s.tmo with strike := s.strikePin, strikeTimer := none } }
  if s.strikePin then (t.findCause .strike).wakeSource false else t

/-- The lid state takes the pin's level (R160, R161). -/
def State.lidSettles (s : State) : State :=
  let t := { s with tmo := { s.tmo with lidTimer := none } }
  if s.lidPin then t.lockLid else t.unlockLid

/-- STRIKE_DEBOUNCE_EXPIRY (R151). -/
def execStrikeDebounceExpiry (s : State) : Host.Outcome State Fault Refusal :=
  onExpiry s.tmo.strikeTimer State.strikeSettles s

/-- LID_DEBOUNCE_EXPIRY (R160, R161). -/
def execLidDebounceExpiry (s : State) : Host.Outcome State Fault Refusal :=
  onExpiry s.tmo.lidTimer State.lidSettles s

end Sys2Proof.Machine
end

