-- ==== Sys2Proof/Machine/ResetEvents.lean ====
section
/-! DEFINITION. Reset and start-up commands: POWER_ON, RESET_N_ASSERTED, RESET_N_NEGATED, RESET_TIMER_EXPIRY,
END_OF_START_UP. -/

namespace Sys2Proof.Machine

/-- POWER_ON (R1, R187). -/
def execPowerOn (after reached : Nat) (s : State) : Host.Outcome State Fault Refusal :=
  let t := s.elapse after
  .next (t.beginReset true reached { t.rst with timer := t.timerFor powerOnTime })

/-- RESET_N_ASSERTED (R1). -/
def execResetNAsserted (after reached : Nat) (s : State) : Host.Outcome State Fault Refusal :=
  let t := s.elapse after
  .next (if t.rst.resetN then t else t.beginReset false reached { t.rst with resetN := true })

/-- RESET_N_NEGATED: the load, unless a timed reset is still in force (R1, R185). -/
def execResetNNegated (after : Nat) (s : State) : Host.Outcome State Fault Refusal :=
  let t := s.elapse after
  .next
    (if !t.rst.resetN then t
     else if t.rst.timer.isSome then { t with rst := { t.rst with resetN := false } }
     else t.endReset)

/-- RESET_TIMER_EXPIRY: the load, unless RESET_N is still asserted (R1, R185). -/
def execResetTimerExpiry (s : State) : Host.Outcome State Fault Refusal :=
  match s.rst.timer with
  | none => .next s
  | some t =>
    let u := { s with time := max s.time t, rst := { s.rst with timer := none } }
    .next (if u.rst.resetN then u else u.endReset)

/-- END_OF_START_UP (R186). -/
def execEndOfStartUp (s : State) : Host.Outcome State Fault Refusal :=
  onExpiry s.startUp (fun t => (State.setPart .run { t with startUp := none }).post .restart) s

end Sys2Proof.Machine
end

