-- ==== Sys2Proof/Machine/RingEvents.lean ====
section
/-! DEFINITION. The balance ring's own instants: OPEN_INSTANT, CLOSE_INSTANT, BLEED_TICK, UNKNOWN_TIMER_EXPIRY. -/

namespace Sys2Proof.Machine

/-- A window leaves the set at its open instant. -/
def Ric.dropWindow (j : Fin 4) (r : Ric) : Ric := { r with windows := r.windows.filter (fun w => w.chamber ≠ j) }

/-- The head is to be served in this window (R138, R139). -/
def Ric.serves (w : Window) (r : Ric) : Bool :=
  !r.frozen && r.opening.isNone &&
  (r.queue.head?).any (fun o => o.chamber = w.chamber && (o.state = .serving || w.afterBound r.bound))

/-- The valve opens for the head order, which is SERVING from now on (R138, R139). -/
def Ric.openFor (flow : Nat) (w : Window) (r : Ric) : Ric :=
  match r.queue with
  | [] => r
  | o :: rest => { r with queue := { o with state := .serving } :: rest, opening := some (openingFor flow w o) }

/-- The head is WAITING. -/
def Ric.headWaits (r : Ric) : Bool := (r.queue.head?).any (fun o => o.state = .waiting)

/-- The open instant of a window (R138, R139). -/
def State.openWindow (w : Window) (s : State) : State :=
  let t : State := { s with ric := s.ric.dropWindow w.chamber }
  if s.ric.serves w then
    let u : State := { t with ric := t.ric.openFor s.flow w }
    if s.ric.headWaits then u.orderServing else u
  else t

/-- OPEN_INSTANT (R138). -/
def execOpenInstant (chamber : Fin 4) (s : State) : Host.Outcome State Fault Refusal :=
  match s.ric.windows.find? (fun w => w.chamber = chamber) with
  | none => .next s
  | some w => .next ((s.atInstant w.opens).openWindow w)

/-- CLOSE_INSTANT (R139). -/
def execCloseInstant (s : State) : Host.Outcome State Fault Refusal :=
  match s.ric.opening with
  | none => .next s
  | some o => .next ((s.atInstant (o.opens + o.duration)).closeOpening o)

/-- BLEED_TICK (R126). -/
def execBleedTick (s : State) : Host.Outcome State Fault Refusal := onExpiry s.ric.bleedTimer State.bleedTick s

/-- UNKNOWN_TIMER_EXPIRY (R127). -/
def execUnknownTimerExpiry (s : State) : Host.Outcome State Fault Refusal :=
  onExpiry s.ric.unknownTimer State.chambersKnown s

end Sys2Proof.Machine
end

