-- ==== Sys2Proof/Machine/RotationEvents.lean ====
section
/-! DEFINITION. Rotation and sampling commands: INDEX_EDGE, SLOT_EVENT, REST_TIMER_EXPIRY, INDEX_OVERDUE,
STATIC_TIMER_EXPIRY. -/

namespace Sys2Proof.Machine

/-- INDEX_EDGE (R3, R5, R11). -/
def execIndexEdge (after : Nat) (rising : Bool) (order : List Taker) (s : State) :
    Host.Outcome State Fault Refusal :=
  fromOutside after (fun t => t.indexEdge rising order) s

/-- SLOT_EVENT: RTB issues the next slot at its due time and CSM takes it (R10, R19). -/
def execSlotEvent (codes : Four Code) (s : State) : Host.Outcome State Fault Refusal :=
  match s.rtb.nextSlot with
  | none => .next s
  | some (k, due) =>
    let t := s.atInstant due
    .next (State.convertSlot k codes { t with rtb := { t.rtb with revolution := .scheduled (k + 1) } })

/-- REST_TIMER_EXPIRY (R8). -/
def execRestTimerExpiry (order : List Taker) (s : State) : Host.Outcome State Fault Refusal :=
  onExpiry s.rtb.restTimer (fun t => t.standstill order) s

/-- INDEX_OVERDUE (R14, R152). -/
def execIndexOverdue (s : State) : Host.Outcome State Fault Refusal :=
  onExpiry s.rtb.overdue
    (fun t => State.findCause .tachLost { t with rtb := { t.rtb with overdue := none } }) s

/-- STATIC_TIMER_EXPIRY (R29). -/
def execStaticTimerExpiry (codes : Four Code) (s : State) : Host.Outcome State Fault Refusal :=
  onExpiry s.csm.staticTimer (fun t => t.staticSample codes) s

end Sys2Proof.Machine
end

