-- ==== Sys2Proof/Machine/TimerEvents.lean ====
section
/-! DEFINITION. The running out of the latch's timers and of the dwell tick timer. -/

namespace Sys2Proof.Machine

/-- GIVE_UP_TIMER_EXPIRY: a snapshot with result GAVE_UP (R56). -/
def execGiveUpTimerExpiry (s : State) : Host.Outcome State Fault Refusal :=
  match s.ibe.latch with
  | .waiting k p giveUp => onExpiry (some giveUp) (fun t => t.latchReady k p .gaveUp) s
  | .free => .next s
  | .ready _ _ _ _ _ => .next s

/-- DISCARD_TIMER_EXPIRY (R57). -/
def execDiscardTimerExpiry (s : State) : Host.Outcome State Fault Refusal :=
  match s.ibe.latch with
  | .ready _ _ _ _ discard => onExpiry (some discard) State.discardLatch s
  | .free => .next s
  | .waiting _ _ _ => .next s

/-- One more tenth of a second of dwell (R118). -/
def Plateau.tick (p : Plateau) : Plateau := { p with elapsed := p.elapsed.map (fun e => min 18000 (e + 1)) }

/-- The dwell has run (R118). -/
def Plateau.expired (p : Plateau) : Bool := p.dwell ≠ 0 && p.elapsed = some p.dwell

/-- A dwell tick: the elapsed dwell advances, and the plateau ends when it reaches the dwell (R118). -/
def State.dwellTick (s : State) : State :=
  let t := s.updateActive Plateau.tick
  if t.active.any Plateau.expired then (t.endActive (.done .expired)).planReport
  else { t with spm := { t.spm with dwellTimer := t.timerFor dwellTime } }

/-- DWELL_TICK (R118). -/
def execDwellTick (s : State) : Host.Outcome State Fault Refusal := onExpiry s.spm.dwellTimer State.dwellTick s

end Sys2Proof.Machine
end

