-- ==== Sys2Proof/Machine/Dispatch.lean ====
section
/-! DEFINITION. The effect of each command on everything but the queue: one arm per row of spec/opcode_table.json. -/

namespace Sys2Proof.Machine

def exec (i : Instr) (s : State) : Host.Outcome State Fault Refusal :=
  match i with
  | .powerOn after reached => Sys2Proof.Machine.execPowerOn after reached s
  | .resetNAsserted after reached => Sys2Proof.Machine.execResetNAsserted after reached s
  | .resetNNegated after => Sys2Proof.Machine.execResetNNegated after s
  | .resetTimerExpiry => Sys2Proof.Machine.execResetTimerExpiry s
  | .endOfStartUp => Sys2Proof.Machine.execEndOfStartUp s
  | .indexEdge after rising order => Sys2Proof.Machine.execIndexEdge after rising order s
  | .slotEvent codes => Sys2Proof.Machine.execSlotEvent codes s
  | .restTimerExpiry order => Sys2Proof.Machine.execRestTimerExpiry order s
  | .indexOverdue => Sys2Proof.Machine.execIndexOverdue s
  | .staticTimerExpiry codes => Sys2Proof.Machine.execStaticTimerExpiry codes s
  | .giveUpTimerExpiry => Sys2Proof.Machine.execGiveUpTimerExpiry s
  | .discardTimerExpiry => Sys2Proof.Machine.execDiscardTimerExpiry s
  | .dwellTick => Sys2Proof.Machine.execDwellTick s
  | .openInstant chamber => Sys2Proof.Machine.execOpenInstant chamber s
  | .closeInstant => Sys2Proof.Machine.execCloseInstant s
  | .bleedTick => Sys2Proof.Machine.execBleedTick s
  | .unknownTimerExpiry => Sys2Proof.Machine.execUnknownTimerExpiry s
  | .strikePinChange after level => Sys2Proof.Machine.execStrikePinChange after level s
  | .strikeDebounceExpiry => Sys2Proof.Machine.execStrikeDebounceExpiry s
  | .lidlkPinChange after level => Sys2Proof.Machine.execLidlkPinChange after level s
  | .lidDebounceExpiry => Sys2Proof.Machine.execLidDebounceExpiry s
  | .frameGapTimeout port => Sys2Proof.Machine.execFrameGapTimeout port s
  | .answerSent after port => Sys2Proof.Machine.execAnswerSent after port s
  | .quietCountdownExpiry => Sys2Proof.Machine.execQuietCountdownExpiry s
  | .wakeTimerExpiry => Sys2Proof.Machine.execWakeTimerExpiry s
  | .programmingDone after => Sys2Proof.Machine.execProgrammingDone after s
  | .lookupPlan after r => Sys2Proof.Machine.execLookupPlan after r s
  | .lookupPlateau after r => Sys2Proof.Machine.execLookupPlateau after r s
  | .lookupGrant after r => Sys2Proof.Machine.execLookupGrant after r s
  | .lookupEstimate after r => Sys2Proof.Machine.execLookupEstimate after r s
  | .lookupEstimateDelayed after r => Sys2Proof.Machine.execLookupEstimateDelayed after r s
  | .lookupLoad after r => Sys2Proof.Machine.execLookupLoad after r s
  | .lookupBand after r => Sys2Proof.Machine.execLookupBand after r s
  | .lookupChamber after r => Sys2Proof.Machine.execLookupChamber after r s
  | .lookupQueue after r => Sys2Proof.Machine.execLookupQueue after r s
  | .lookupStatus after r => Sys2Proof.Machine.execLookupStatus after r s
  | .lookupCal after r => Sys2Proof.Machine.execLookupCal after r s
  | .append after r => Sys2Proof.Machine.execAppend after r s
  | .amendPlateau after r => Sys2Proof.Machine.execAmendPlateau after r s
  | .amendLoad after r => Sys2Proof.Machine.execAmendLoad after r s
  | .withdraw after r => Sys2Proof.Machine.execWithdraw after r s
  | .retirePlateau after r => Sys2Proof.Machine.execRetirePlateau after r s
  | .retireBand after r => Sys2Proof.Machine.execRetireBand after r s
  | .declare after r => Sys2Proof.Machine.execDeclare after r s
  | .pin after r => Sys2Proof.Machine.execPin after r s
  | .inject after r => Sys2Proof.Machine.execInject after r s
  | .start after r => Sys2Proof.Machine.execStart after r s
  | .pause after r => Sys2Proof.Machine.execPause after r s
  | .resume after r => Sys2Proof.Machine.execResume after r s
  | .next after r => Sys2Proof.Machine.execNext after r s
  | .abort after r => Sys2Proof.Machine.execAbort after r s
  | .clear after r => Sys2Proof.Machine.execClear after r s
  | .guard after r => Sys2Proof.Machine.execGuard after r s
  | .flush after r => Sys2Proof.Machine.execFlush after r s
  | .cancel after r => Sys2Proof.Machine.execCancel after r s
  | .clearTrip after r => Sys2Proof.Machine.execClearTrip after r s
  | .quiet after r => Sys2Proof.Machine.execQuiet after r s
  | .reset after r => Sys2Proof.Machine.execReset after r s
  | .lock after r => Sys2Proof.Machine.execLock after r s
  | .calWrite after r => Sys2Proof.Machine.execCalWrite after r s
  | .keyVerify after r => Sys2Proof.Machine.execKeyVerify after r s
  | .characterReceived after port byte stopBit => Sys2Proof.Machine.execCharacterReceived after port byte stopBit s

end Sys2Proof.Machine
end

