-- ==== Sys2Proof/Safety.lean ====
section
/-! DEFINITION. The words the statements are written in: what the part must keep true at every step, the conditions under which
a request reaches its owner, and the state an answer leaves. -/

namespace Sys2Proof.Machine

/-! ### What every step keeps -/

/-- The grant image is the grant record (R170). -/
def State.imageCurrent (s : State) : Bool := s.lkp.image = s.spm.grant

/-- The cause set is empty while the latch is clear, and holds the first cause while it is set (Table 8-1, note 1). -/
def State.causesConsistent (s : State) : Bool :=
  match s.tmo.first with
  | none => s.tmo.causes = CauseSet.none
  | some c => s.tmo.causes.has c

/-- The part state against the resets in force and its three timers (Tables 9-1 and 9-6, R186). -/
def State.partConsistent (s : State) : Bool :=
  (!s.inReset || s.lkp.part = .starting) &&
  s.startUp.isSome = (decide (s.lkp.part = .starting) && !s.inReset) &&
  s.lkp.quietTimer.isSome = decide (s.lkp.part = .quietPending) &&
  s.lkp.wakeTimer.isSome = decide (s.lkp.part = .waking)

/-- The valve is open only for the SERVING head's chamber with the queue not frozen (R142). -/
def Ric.valveSafe (r : Ric) : Bool :=
  match r.opening, r.queue with
  | none, _ => true
  | some _, [] => false
  | some o, h :: _ => !r.frozen && h.state = .serving && h.chamber = o.chamber

/-- At most 8 orders, none but the head SERVING, none while the queue is frozen, and no two adjacent ones that merge
(R128, R144). -/
def Ric.queueFits (r : Ric) : Bool :=
  r.queue.length ≤ Config.queueEntries && r.queue.tail.all (fun o => o.state = .waiting) &&
  (!r.frozen || r.queue.all (fun o => o.state = .waiting)) &&
  (r.queue.zip r.queue.tail).all (fun p => !p.1.merges p.2)

/-- The frozen flag says whether the queue must be frozen, the queue is well formed, and the valve is safe
(R128, R142, R143, R144). -/
def State.ringSafe (s : State) : Bool :=
  s.ric.frozen = s.freezeCondition && s.ric.queueFits && s.ric.valveSafe

/-- The records that fit a plan state (Table 6-7, R93). -/
def recordsFit (plan : PlanState) (ps : List Plateau) : Bool :=
  match plan with
  | .empty => ps.isEmpty
  | .loaded => !ps.isEmpty && ps.all Plateau.isQueued
  | .running =>
    ps.countP Plateau.isActive = 1 && ps.all (fun p => p.state ≠ .active .held)
  | .paused _ =>
    ps.countP Plateau.isActive = 1 && ps.all (fun p => !p.isActive || p.state = .active .held)
  | .complete => ps.all Plateau.isOver
  | .aborted => ps.all Plateau.isOver

/-- The dwell tick timer runs only for a plateau DWELLING in its window in a RUNNING plan (R118). -/
def State.dwellFits (s : State) : Bool :=
  !s.spm.dwellTimer.isSome ||
    (s.spm.plan = .running && s.activePhase = some .dwelling && s.spm.inWindow)

/-- The plan: distinct slots below 8, records that fit its state, a derived value exactly while RUNNING, and the dwell tick
timer (R92, R93, R118, Table 6-5 note 2). -/
def State.planConsistent (s : State) : Bool :=
  (s.spm.plateaus.map Plateau.slot).Nodup && s.spm.plateaus.all (fun p => p.slot < Config.plateauSlots) &&
  recordsFit s.spm.plan s.spm.plateaus && s.spm.derived.isSome = decide (s.spm.plan = .running) && s.dwellFits

/-- The grant speed of REBALANCE is Sdist unless it is forced to 0, and the dwell tick timer runs while its conditions hold
(R113, R118, R119). -/
def State.planCurrent (s : State) : Bool :=
  (s.spm.plan ≠ .paused .rebalance || s.grantForced || s.spm.grant.speed = s.sdist) &&
  (s.spm.dwellTimer.isSome =
    (decide (s.spm.plan = .running) && decide (s.activePhase = some .dwelling) && s.spm.inWindow))

/-- A band lies in the range of R60 and Table 4-2 for an Sdist. -/
def Band.fits (sdist : Nat) (b : Band) : Bool :=
  b.id < Config.bandSlots && sdist + 30 ≤ b.lower && b.lower < b.upper && b.upper ≤ 1200 && between 1 9999 b.peak

/-- The open span's speeds, and the plan that keeps it open (R68, R69). -/
def State.spanFits (s : State) : Bool :=
  match s.rbt.span with
  | none => true
  | some p =>
    s.spm.plan = .running && s.sdist + 40 ≤ p.low && p.low ≤ p.high && p.low ≤ 1200 && between 1 9999 p.peak

/-- The band table: ids rising, no two bands that overlap or touch, every band in range (R60). -/
def State.bandsSafe (s : State) : Bool :=
  (s.rbt.bands.map Band.id).Pairwise (· < ·) &&
  s.rbt.bands.Pairwise (fun a b => a.overlaps b = false) &&
  s.rbt.bands.all (Band.fits s.sdist) && s.spanFits

/-- The grant: 0 while anything forces it to 0, above 0 only in a RUNNING plan or in REBALANCE, never above the ceiling and
never inside a band; the ceiling never below Sdist and shown in the record (R82, R114, R119, R122). -/
def State.grantSafe (s : State) : Bool :=
  (!s.grantForced || s.spm.grant.speed = 0) &&
  (s.spm.grant.speed = 0 || s.spm.plan = .running || s.spm.plan = .paused .rebalance) &&
  s.spm.grant.speed ≤ s.spm.ceiling.value && s.sdist ≤ s.spm.ceiling.value &&
  s.spm.grant.ceiling = s.spm.ceiling &&
  (s.spm.grant.speed = 0 || s.rbt.bands.all (fun b => !b.inside s.spm.grant.speed))

/-- The store: the items of Tables 10-2 and 10-3, each with as many stored words and words in force as the table gives it, and
the words being programmed as many. -/
def Cls.storeFits (c : Cls) : Bool :=
  c.items.map Item.num = itemSpecs.map ItemSpec.num &&
  c.items.all (fun i =>
    (specOf i.num).all (fun spec => i.stored.length = spec.words && i.held.length = spec.words)) &&
  c.programming.all (fun p => (specOf p.item).all (fun spec => p.words.length = spec.words))

/-- Outside a reset SPM has taken the last estimate update, and it carries what the estimate shows (R51, R77). -/
def State.updateCurrent (s : State) : Bool := s.inReset || s.spm.update = s.estimateUpdate

/-! ### Arithmetic, as the rules say it -/

/-- q is n / d rounded to the nearest integer, halves away from zero (spec/00_scope.md, section 6.3). -/
def isRounded (n : Int) (d : Nat) (q : Int) : Prop :=
  2 * |n - d * q| ≤ d ∧ (2 * |n - d * q| = d → |n| < d * |q|)

/-- m is the length of a vector to the nearest µm (R22). -/
def isMagnitude (v : Vec) (m : Nat) : Prop :=
  4 * (v.x ^ 2 + v.y ^ 2) < (2 * (m : Int) + 1) ^ 2 ∧ (m = 0 ∨ (2 * (m : Int) - 1) ^ 2 ≤ 4 * (v.x ^ 2 + v.y ^ 2))

/-! ### The corners -/

/-- A channel's state and streak after one observation in a regime, DEAD, CLEAN or neither (Table 2-6, R24 to R26). -/
def channelFollows (r : Regime) (dead clean : Bool) (x y : Corner) : Prop :=
  let n := if x.streak.regime = r then x.streak.length else 0
  let enough := if r = .static then 8 else if x.channel = .ok then 1 else 4
  let counts := if x.channel = .ok then dead else clean
  (counts = true → enough ≤ n + 1 → y.channel ≠ x.channel ∧ y.streak = ⟨.none, 0⟩) ∧
  (counts = true → n + 1 < enough → y.channel = x.channel ∧ y.streak = ⟨r, n + 1⟩) ∧
  (counts = false → y.channel = x.channel ∧ y.streak = ⟨r, 0⟩)

/-- The sum that the mean sag divides: the sags of the OK corners over the entries of the window, in µm (R30). -/
def Csm.sagTotal (offsets : Four Nat) (c : Csm) : Int :=
  (c.window.map (fun e => ((List.finRange 4).map (fun j =>
    if (c.corners.get j).channel = .ok then ((offsets.get j : Int) - (e.get j).toNat) * 50 else 0)).sum)).sum

/-- CSM at a completion (R20 to R26, R28): the channels observe a full revolution, the report is attached, the sums are cleared
and the speed is applied to static sampling. A QUIET part that this edge wakes samples at the fast rate again (log 35). -/
def State.samplerTakes (accepted : Bool) (now speed : Nat) (report : Four CornerEntry) (s t : State) : Prop :=
  let full := s.csm.conversions = 32
  let sampling := s.csm.staticTimer.isSome = true
  let wakes := s.lkp.part = .quiet ∧ s.rtb.speedState = .stopped
  (∀ j : Fin 4,
    let x := s.csm.corners.get j
    let y := t.csm.corners.get j
    let e := report.get j
    (full → channelFollows .rev (x.outOfWindow = 32) (x.outOfWindow = 0) x y) ∧
    (¬ full → y.channel = x.channel ∧
      y.streak = if x.streak.regime = .rev ∨ (x.streak.regime = .static ∧ sampling ∧ 30 ≤ speed) then ⟨.none, 0⟩
        else x.streak) ∧
    y.iSum = 0 ∧ y.qSum = 0 ∧ y.clipped = 0 ∧ y.outOfWindow = 0 ∧
    e.channel = y.channel ∧ e.clipped = (if full then some x.clipped else none) ∧
    (full ∧ accepted = true ∧ y.channel = .ok →
      ∃ v, e.vec = some v ∧ isRounded (x.iSum * 50) 16384 v.x ∧ isRounded (x.qSum * 50) 16384 v.y) ∧
    (¬(full ∧ accepted = true ∧ y.channel = .ok) → e.vec = none)) ∧
  t.csm.conversions = 0 ∧ t.csm.quietRef = (if wakes then none else s.csm.quietRef) ∧
  (sampling → 30 ≤ speed →
    t.csm.staticTimer = none ∧ t.csm.window = [] ∧ t.csm.meanSag = none ∧ t.csm.loadMass = none) ∧
  (¬(sampling ∧ 30 ≤ speed) →
    t.csm.window = s.csm.window ∧ t.csm.meanSag = s.csm.meanSag ∧ t.csm.loadMass = s.csm.loadMass) ∧
  (sampling → speed < 30 → t.csm.staticTimer = if wakes then some (now + 100000) else s.csm.staticTimer) ∧
  (¬ sampling → s.lkp.part ≠ .starting → speed < 30 →
    t.csm.staticTimer = some (now + if s.lkp.part = .quiet ∧ ¬ wakes then 1000000 else 100000)) ∧
  (¬ sampling → s.lkp.part = .starting ∨ 30 ≤ speed → t.csm.staticTimer = none)

/-! ### The estimate -/

/-- The counted VALID work of IBE (R40 to R49): orbit, restart or smoothing, grams, angle, settle count, U_last. -/
def State.estimatorCounts (speed ok : Nat) (report : Four CornerEntry) (s t : State) : Prop :=
  ∃ (o w : Vec) (mo mw : Nat),
    let vs := report.toList.filterMap CornerEntry.vec
    let restarts : Bool := s.ibe.est ≠ .valid || s.ibe.smooth = none || s.ibe.restartPending ||
      40 < |(speed : Int) - (s.ibe.restartSpeed.getD 0 : Nat)|
    let g := s.receptance speed
    let uRev := min 9999 ((mo * 100 + g / 2) / g)
    let uS := min 9999 ((mw * 100 + g / 2) / g)
    let settle :=
      if s.ibe.injectionMark then 0
      else if |(uRev : Int) - uS| ≤ max (uS / 8) 20 then min 255 ((if restarts then 0 else s.ibe.settle) + 1)
      else 0
    isRounded (vs.map Vec.x).sum ok o.x ∧ isRounded (vs.map Vec.y).sum ok o.y ∧
    isMagnitude o mo ∧ isMagnitude w mw ∧
    (restarts = true ∨ s.spm.guard = .test → w = o) ∧
    (restarts = false → s.spm.guard ≠ .test → ∀ old, s.ibe.smooth = some old →
      isRounded (o.x - old.x) 4 (w.x - old.x) ∧ isRounded (o.y - old.y) 4 (w.y - old.y)) ∧
    t.ibe = { s.ibe with
      est := .valid, orbit := some o, smooth := some w,
      restartSpeed := if restarts then some speed else s.ibe.restartSpeed, restartPending := false,
      countedSpeed := some speed, settle := settle,
      injectionMark := s.ibe.injectionMark && s.ric.queue.any (fun order => order.state = .serving),
      uRev := some uRev, uS := some uS, angle := some ((angleOf w + 256 - s.lag speed % 256) % 256),
      uLast := if (if s.spm.guard = .test then 1 else 4) ≤ settle then some uS else s.ibe.uLast,
      ringQuiet := t.ibe.ringQuiet, latch := t.ibe.latch }

/-- IBE at a completion (R39 to R49, R52, R56): slow, unused, INVALID or counted. The ring-quiet count follows the queue, unless
an automatic posting of the same event sets it to 0; the latch stays or is READY with result MET. -/
def State.estimatorTakes (accepted : Bool) (now speed : Nat) (report : Four CornerEntry) (s t : State) : Prop :=
  let used := accepted = true ∧ s.csm.conversions = 32
  let ok := report.toList.countP (fun e => e.channel = .ok)
  let others := { s.ibe with ringQuiet := t.ibe.ringQuiet, latch := t.ibe.latch }
  let quiet (n : Nat) := t.ibe.ringQuiet = n ∨ (t.ibe.ringQuiet = 0 ∧ ∃ o ∈ t.ric.queue, o.origin = .auto)
  (speed < 60 → t.ibe = { others with est := .idle, settle := 0 } ∧ quiet s.ibe.ringQuiet) ∧
  (60 ≤ speed → ¬ used → t.ibe = others ∧ quiet s.ibe.ringQuiet) ∧
  (60 ≤ speed → used → ok < 3 →
    t.ibe = { others with
      est := .invalid, settle := 0, countedSpeed := s.ibe.countedSpeed.map (fun _ => speed) } ∧
    quiet s.ibe.ringQuiet) ∧
  (60 ≤ speed → used → 3 ≤ ok →
    s.estimatorCounts speed ok report t ∧
    quiet (if s.ric.queue = [] then min 4 (s.ibe.ringQuiet + 1) else 0)) ∧
  (t.ibe.latch = s.ibe.latch ∨
    ∃ k p τ e, s.ibe.latch = .waiting k p τ ∧ t.ibe.latch = .ready k p e .met (now + 2000000))

/-! ### Trips -/

/-- TMO's tests at a completion of period p (R150, R153, R154) and the taking of what they find (R155, R156). -/
def State.tripsTake (accepted : Bool) (p speed : Nat) (report : Four CornerEntry) (s t : State) : Prop :=
  let ok := report.toList.countP (fun e => e.channel = .ok)
  let count := if p * (s.smax + 50) < 60000000 then min 2 (s.tmo.overspeed + 1) else 0
  let found (c : Cause) : Prop :=
    (c = .orbit ∧ accepted = true ∧ s.csm.conversions = 32 ∧ ∃ e ∈ report.toList, e.channel = .ok ∧
      ((∃ v m, e.vec = some v ∧ isMagnitude v m ∧ s.ltrip * s.guardFactor < m * 100) ∨
        ∃ n, e.clipped = some n ∧ 4 ≤ n)) ∨
    (c = .sensors ∧ ok < 2 ∧ s.sdist + 40 ≤ speed) ∨ (c = .overspeed ∧ count = 2)
  t.tmo = { s.tmo with overspeed := count, first := t.tmo.first, causes := t.tmo.causes } ∧
  (∀ c, t.tmo.causes.has c = true ↔ s.tmo.causes.has c = true ∨ found c) ∧
  (∀ c, found c → s.tmo.causes.has c = false → t.lkp.notices.trip = true) ∧
  (∀ c, s.tmo.first = some c → t.tmo.first = some c) ∧
  (s.tmo.first = none → (∀ c, ¬ found c) → t.tmo.first = none) ∧
  (s.tmo.first = none → (∃ c, found c) →
    (∃ c, found c ∧ t.tmo.first = some c) ∧ (s.spm.plan.underway = true → t.spm.plan = .paused .trip)) ∧
  (t.tmo.first ≠ none → t.spm.grant.speed = 0 ∧ t.tripLine = true)

/-! ### Windows, arrival and learning at a completion -/

/-- The window of chamber j of a revolution whose edge comes now, with reference period p (R137). -/
def State.windowFor (now p : Nat) (s : State) (j : Fin 4) : Window :=
  let opens := (now + (64 * j.val + s.nozzle + 8) % 256 * p / 256) % 16777216
  let length := 48 * p / 256
  { chamber := j, opens := opens, starts := sub24 opens (8 * p / 256), length := length,
    full := s.flow * length / 1000 }

/-- SPM's arrival test (R117) at the grant speed that the derivation of the same completion leaves (log 13): every change of it
sets the count to 0. -/
def State.arrivalTakes (accepted : Bool) (speed : Nat) (s t : State) : Prop :=
  let g := t.spm.grant.speed
  let before := if g = s.spm.grant.speed then s.spm.arrival else 0
  let tested := 0 < g ∧ (g < 60 ∨ accepted = true)
  let near := |(speed : Int) - g| ≤ 15
  (¬ tested → t.spm.arrival = before ∧ t.activePhase = some .ramping) ∧
  (tested → ¬ near → t.spm.arrival = 0 ∧ t.activePhase = some .ramping) ∧
  (tested → near → before = 0 → t.spm.arrival = 1 ∧ t.activePhase = some .ramping) ∧
  (tested → near → 1 ≤ before → t.spm.arrival = 2 ∧ t.activePhase = some .dwelling)

/-- Learning is active at a speed, with U_last given (R68). -/
def State.learns (speed : Nat) (uLast : Option Nat) (s : State) : Prop :=
  s.spm.plan = .running ∧ s.activePhase = some .ramping ∧ speed < s.spm.grant.speed ∧ s.sdist + 40 ≤ speed ∧
  ∃ u, uLast = some u ∧ 50 ≤ u

/-- RBT at a completion (R69, R70) whose work began and ended with learning active: an anomalous revolution opens or extends the
span, one that is no counted VALID revolution leaves it; a counted VALID revolution that is not anomalous, and learning that is
not active in the end, leave it closed. -/
def State.learningTakes (counted : Prop) (speed : Nat) (s t : State) : Prop :=
  let both := s.learns speed t.ibe.uLast ∧ t.learns speed t.ibe.uLast
  (∀ o m u, counted → t.ibe.orbit = some o → isMagnitude o m → t.ibe.uLast = some u →
    let ga := min 9999 (m * 100 / u)
    (s.receptance speed * 5 < ga * 4 → both →
      t.rbt = { s.rbt with
        span := some (match s.rbt.span with
          | none => ⟨1, speed, speed, ga⟩
          | some q => ⟨min 255 (q.count + 1), min q.low speed, max q.high speed, max q.peak ga⟩) }) ∧
    (ga * 4 ≤ s.receptance speed * 5 → t.rbt.span = none)) ∧
  (¬ counted → both → t.rbt = s.rbt) ∧
  (¬ t.learns speed t.ibe.uLast → t.rbt.span = none)

/-! ### Part state, timers and ring over an event -/

/-- LKP at a completion: a report of an entry into TURNING wakes a QUIET part and cancels QUIET_PENDING, and so does a newly set
latch the latter (R7, R175, R176). -/
def State.turningTakes (now : Nat) (s t : State) : Prop :=
  let enters := s.rtb.speedState = .stopped
  let wakes := enters ∧ s.lkp.part = .quiet
  let cancels := s.lkp.part = .quietPending ∧ (enters ∨ (s.tmo.first = none ∧ t.tmo.first ≠ none))
  (wakes → t.lkp.part = .waking ∧ t.lkp.wakeTimer = some (now + 50000) ∧ t.lkp.quietTimer = s.lkp.quietTimer) ∧
  (cancels → t.lkp.part = .run ∧ t.lkp.quietTimer = none ∧ t.lkp.wakeTimer = s.lkp.wakeTimer) ∧
  (¬ wakes → ¬ cancels →
    t.lkp.part = s.lkp.part ∧ t.lkp.quietTimer = s.lkp.quietTimer ∧ t.lkp.wakeTimer = s.lkp.wakeTimer) ∧
  t.lkp.notices.wake = (s.lkp.notices.wake || decide (wakes ∨ (enters ∧ s.lkp.part = .waking)))

/-- The dwell tick timer over an event (R117, R118): it runs exactly while its conditions hold, with a fresh interval where it did
not run before; a change of the grant speed may start it afresh. -/
def State.dwellTakes (now : Nat) (s t : State) : Prop :=
  let runs := t.spm.plan = .running ∧ t.activePhase = some .dwelling ∧ t.spm.inWindow = true
  let fresh := t.spm.dwellTimer = some (now + 100000)
  (¬ runs → t.spm.dwellTimer = none) ∧ (runs → s.spm.dwellTimer = none → fresh) ∧
  (runs → s.spm.dwellTimer ≠ none →
    t.spm.dwellTimer = s.spm.dwellTimer ∨ (fresh ∧ t.spm.grant.speed ≠ s.spm.grant.speed))

/-- The bleed and unknown timers over an event that applies the speed to them (R126, R127). -/
def State.timersFollow (now : Nat) (s t : State) : Prop :=
  (t.shold ≤ t.rpm → t.ric.bleedTimer = none ∧ t.ric.unknownTimer = none) ∧
  (t.rpm < t.shold →
    t.ric.bleedTimer = some (s.ric.bleedTimer.getD (now + 100000)) ∧
    t.ric.unknownTimer =
      if s.ric.contents = none then some (s.ric.unknownTimer.getD (now + 30000000)) else none)

/-- The water that an open valve has delivered so far, in mg: F × e / 1000 with the opening's own flow (log 15), for at most its
duration (log 27). -/
def Ric.waterSoFar (now : Nat) (r : Ric) : Nat :=
  match r.opening with
  | none => 0
  | some o => o.flow * min (sub24 now o.opens) o.duration / 1000

/-- The chambers with the whole grams that `mg` more carry an order across (R130). -/
def creditedTo (h : Order) (mg : Nat) (contents : Option (Four Nat)) : Option (Four Nat) :=
  contents.map (fun k =>
    k.set h.chamber (k.get h.chamber + 1000 * ((h.delivered + mg) / 1000 - h.delivered / 1000)))

/-- What a change of the queue to frozen leaves (R144): an open valve closes with the water delivered so far credited, an order that
this completes leaves, and a SERVING head goes back to WAITING and takes in an equal order behind it. -/
def Ric.freezesTo (now : Nat) (r q : Ric) : Prop :=
  q.opening = none ∧
  (r.queue = [] → q.queue = [] ∧ q.contents = r.contents ∧ q.bound = r.bound ∧ q.flush = r.flush) ∧
  ∀ h rest, r.queue = h :: rest →
    let water := r.waterSoFar now
    let complete := r.opening ≠ none ∧ h.requested * 1000 ≤ h.delivered + water
    let back : Order := { h with delivered := h.delivered + water, state := .waiting }
    let equal (n : Order) : Prop := n.state = .waiting ∧ n.chamber = h.chamber ∧ n.origin = h.origin
    q.contents = creditedTo h water r.contents ∧
    (complete → q.queue = rest ∧ q.flush = (r.flush && !rest.isEmpty) ∧
      q.bound = if rest = [] then r.bound else now) ∧
    (¬ complete → h.state = .waiting → q.queue = r.queue ∧ q.bound = r.bound ∧ q.flush = r.flush) ∧
    (¬ complete → h.state = .serving →
      q.bound = now ∧ q.flush = r.flush ∧
      ((∀ n, rest.head? = some n → ¬ equal n) → q.queue = back :: rest) ∧
      (∀ n more, rest = n :: more → equal n →
        q.queue = { back with requested := h.requested + n.requested, clamped := h.clamped || n.clamped } :: more))

/-- Orders, chambers and valve over an event in which only the freeze touches them (R138, R143, R144). -/
def Ric.ordersFollow (now : Nat) (r q : Ric) : Prop :=
  (r.frozen = false → q.frozen = true → r.freezesTo now q) ∧
  (r.frozen = true ∨ q.frozen = false →
    q.queue = r.queue ∧ q.contents = r.contents ∧ q.opening = r.opening ∧ q.flush = r.flush ∧
    q.bound = if r.frozen = true ∧ q.frozen = false then now else r.bound)

/-- RIC over an event in which only the freeze touches it. -/
def State.ringFollows (s t : State) : Prop :=
  t.ric.frozen = t.freezeCondition ∧ s.ric.ordersFollow t.capture t.ric ∧ t.ric.windows = s.ric.windows ∧
  t.ric.bleedTimer = s.ric.bleedTimer ∧ t.ric.unknownTimer = s.ric.unknownTimer

/-- RIC at a completion (R126, R127, R137, R143, R144): the freeze, then `posted`, the automatic orders of the event. A queue that
was empty before them, and one that a trip of the same event freezes again (log 4), have the service bound of now. -/
def State.ringTakes (now : Nat) (s t : State) : Prop :=
  t.ric.frozen = t.freezeCondition ∧ s.timersFollow now t ∧
  ∃ q posted bound, t.ric.queue = q ++ posted ∧
    s.ric.ordersFollow (now % 16777216) { t.ric with queue := q, bound := bound } ∧
    (∀ o ∈ posted, o.origin = .auto ∧ o.state = .waiting ∧ o.delivered = 0) ∧
    (posted ≠ [] → s.ric.flush = false ∧ ∀ o ∈ s.ric.queue, o.origin = .partner) ∧
    (t.ric.bound = bound ∨
      (t.ric.bound = now % 16777216 ∧
        ((q = [] ∧ posted ≠ []) ∨ (s.ric.frozen = true ∧ t.ric.frozen = true ∧ t.tmo.first ≠ none))))

/-! ### The ceiling -/

/-- n is the force limit (R78). -/
def isForceLimit (u kf g n : Nat) : Prop :=
  (u = 0 → n = 1200) ∧
  (u ≠ 0 → n ≤ 1200 ∧ u * n ^ 2 * 100 ≤ kf ^ 2 * g ∧ ∀ m ≤ 1200, u * m ^ 2 * 100 ≤ kf ^ 2 * g → m ≤ n)

/-- A band that is not passed and not crossable (R79, R80). -/
def State.blocks (s : State) (b : Band) : Prop :=
  s.rpm < b.upper ∧ s.lcross * s.guardFactor < s.spm.update.u * b.peak

/-- The band limit and the limiting band (R80): 20 rpm under the lowest band that blocks, else 1200. -/
def State.isBandLimit (limit : Nat) (band : Option Nat) (s : State) : Prop :=
  (∃ b ∈ s.rbt.bands, s.blocks b ∧ (∀ a ∈ s.rbt.bands, s.blocks a → b.lower ≤ a.lower) ∧ limit = b.lower - 20 ∧
    band = some b.id) ∨
  ((∀ b ∈ s.rbt.bands, ¬ s.blocks b) ∧ limit = 1200 ∧ band = none)

/-- A ceiling is the one that stages A to D give for the inputs in force (R77 to R83). At a C of 1200 the term is SMAX (log 34). -/
def State.ceilingFits (c : Ceiling) (s : State) : Prop :=
  ∃ sf sb band, isForceLimit s.spm.update.u s.kf s.guardFactor sf ∧ s.isBandLimit sb band ∧
    let first := min (min sf sb) (min s.smax 1200)
    let capped := if s.spm.update.degraded then min first 400 else first
    let last := if s.spm.guard = .test then min capped 300 else capped
    c.value = max last s.sdist ∧
    (last < s.sdist → c.term = .floor) ∧
    (s.sdist ≤ last → last < capped → c.term = .test) ∧
    (s.sdist ≤ last → last = capped → capped < first → c.term = .degraded) ∧
    (s.sdist ≤ last → last = first → first = 1200 → c.term = .smax) ∧
    (s.sdist ≤ last → last = first → first < 1200 →
      (sb = first → c.term = .band) ∧ (sb ≠ first → sf = first → c.term = .force) ∧
      (sb ≠ first → sf ≠ first → c.term = .smax)) ∧
    c.limiting = if c.term = .band then band else none

/-- Outside a reset the ceiling in force is that of the inputs in force (R85). -/
def State.ceilingCurrent (s : State) : Prop := s.inReset = true ∨ s.ceilingFits s.spm.ceiling

/-! ### The derivation -/

/-- One move out of the bands (R111): from inside a band to 20 rpm under it, the lowest band that holds c first. -/
def movesOut (bs : List Band) (c d : Nat) : Prop :=
  ∃ b ∈ bs, b.lower ≤ c ∧ c ≤ b.upper ∧ (∀ a ∈ bs, a.lower ≤ c → c ≤ a.upper → b.lower ≤ a.lower) ∧ d = b.lower - 20

/-- d is c moved out of the bands, move after move, until it lies in none (R111). -/
def isMovedOut (bs : List Band) (c d : Nat) : Prop :=
  Relation.ReflTransGen (movesOut bs) c d ∧ ∀ b ∈ bs, d < b.lower ∨ b.upper < d

/-- The candidates of the steady search (R112): c, c − 10, … while they lie above the bound, and the bound. -/
def isCandidate (c bound n : Nat) : Prop := n ≤ c ∧ (n = bound ∨ (bound < n ∧ (c - n) % 10 = 0))

/-- A candidate lies in no band and passes the steady test (R112). -/
def State.steady (n : Nat) (s : State) : Prop :=
  (∀ b ∈ s.rbt.bands, n < b.lower ∨ b.upper < n) ∧ s.spm.update.u * s.receptance n ≤ s.lst * s.guardFactor

/-- Steps 1 to 3 of the derivation for a plateau (R111, R112): c is what step 2 leaves of min(T, ceiling), and `value` the derived
value, the highest candidate that is steady, or none where the search fails. -/
def State.derives (p : Plateau) (c : Nat) (value : Option Nat) (s : State) : Prop :=
  let bound := max (p.floor.getD 0) s.sdist
  isMovedOut s.rbt.bands (min p.target s.spm.ceiling.value) c ∧
  (c ≤ s.sdist → value = some c) ∧
  (s.sdist < c →
    (∀ v, value = some v →
      isCandidate c bound v ∧ s.steady v ∧ ∀ n, isCandidate c bound n → s.steady n → n ≤ v) ∧
    (value = none → ∀ n, isCandidate c bound n → ¬ s.steady n))

/-- What a derivation for plateau p leaves (R112, R113, R115), with c and value as `derives` gives them: the marks of the
derivation and the flags of the plateau; or with no value, REBALANCE at Sdist. The search is rejecting where its value is not c
(log 12), and a failed search that was band-moved sets BAND_ADJUSTED (log 19). -/
def State.derivedFrom (p : Plateau) (c : Nat) (value : Option Nat) (t : State) : Prop :=
  let moved := decide (c ≠ min p.target t.spm.ceiling.value)
  (∀ v, value = some v →
    t.spm.plan = .running ∧ t.spm.derived = some v ∧ t.spm.rejecting = decide (v ≠ c) ∧ t.spm.bandMoved = moved) ∧
  (value = none →
    t.spm.plan = .paused .rebalance ∧ t.spm.derived = none ∧ t.spm.grant.speed = t.sdist ∧
    t.lkp.notices.rebalance = true ∧ t.lkp.notices.planState = true ∧ t.activePhase = some .held) ∧
  ∃ q, t.active = some q ∧ q.slot = p.slot ∧ q.derated = (p.derated || value.any (fun v => v < p.target)) ∧
    q.bandAdjusted = (p.bandAdjusted || moved)

/-- Step 4 (R114): what a held derivation of value v makes of a grant speed, `settled` as the update that SPM took last says. -/
def isHeldGrant (bs : List Band) (settled : Bool) (grant v new : Nat) : Prop :=
  ∃ e, (grant = 0 → e = 0) ∧ (0 < grant → isMovedOut bs grant e) ∧
    (v < e → new = v) ∧ (e + 40 ≤ v → settled = true → new = v) ∧
    (e ≤ v → ¬(e + 40 ≤ v ∧ settled = true) → new = e)

/-! ### The grant record -/

/-- The ramp class (R116). -/
def State.rampFits (s : State) : Prop :=
  let g := s.spm.grant.speed
  let now := s.rpm
  let crosses := ∃ b ∈ s.rbt.bands, (now < b.lower ∧ b.lower < g) ∨ (b.lower ≤ now ∧ now ≤ b.upper ∧ b.upper < g)
  (g = 0 → s.spm.grant.ramp = if s.rtb.atRest then .normal else .brake) ∧
  (0 < g → g + 30 < now → s.spm.grant.ramp = .brake) ∧
  (0 < g → now ≤ g + 30 → crosses → s.spm.grant.ramp = .fast) ∧
  (0 < g → now ≤ g + 30 → ¬ crosses → s.spm.grant.ramp = .normal)

/-- The reason, line by line (Table 6-11). -/
def State.reasonShown (s : State) : Reason :=
  let plan := s.spm.plan
  let g := s.spm.grant.speed
  let under (n : Nat) : Bool := s.active.any (fun p => n < p.target)
  let below : Bool := plan = .running && under g
  if s.tmo.first ≠ none then .trip
  else if s.tmo.lid = false then .lid
  else if s.spm.restartHold = true ∨ s.lkp.part = .starting then .restart
  else if s.lkp.part = .quietPending ∨ s.lkp.part = .quiet ∨ s.lkp.part = .waking then .quiet
  else if plan = .paused .partner ∨ plan = .paused .lid ∨ plan = .paused .trip then .paused
  else if plan = .paused .rebalance then .rebalance
  else if below ∧ s.spm.update.degraded = true then .degraded
  else if below ∧ (s.spm.rejecting = true ∨ s.spm.derived.any (fun v => g < v) = true) then .steady
  else if below ∧ (s.spm.bandMoved = true ∨ (s.spm.ceiling.term = .band ∧ under s.spm.ceiling.value)) then .band
  else if below then .ceiling
  else if plan = .running ∧ s.active.any Plateau.clamped = true then .clamped
  else if (plan = .complete ∨ plan = .aborted) ∧ s.rtb.atRest = false then .planEnd
  else .none

/-- The grant record shows the active plateau's slot, the ramp class and the reason that the state gives (R122). -/
def State.recordShown (s : State) : Prop :=
  s.spm.grant.slot = s.active.map Plateau.slot ∧ s.rampFits ∧ s.spm.grant.reason = s.reasonShown

/-- The grant record is the one that the state gives from the end of start-up on; until the first evaluation after a reset it shows
RESTART (Table 6-12, log 30). -/
def State.recordFits (s : State) : Prop := s.lkp.part = .starting ∨ s.recordShown

/-! ### Bands -/

/-- The receiving band with a declaration or a candidate taken in (R62). -/
def Band.takesIn (lower upper peak : Nat) (o : Origin) (b : Band) : Band :=
  let origin :=
    if b.origin = .calibrated then .calibrated else if b.origin = .declared ∨ o = .declared then .declared else o
  { id := b.id, lower := min b.lower lower, upper := max b.upper upper, peak := max b.peak peak,
    origin := origin, hits := min 255 (b.hits + 1), pinned := b.pinned && decide (origin = .learned),
    adjusted := b.adjusted ||
      (decide (b.origin = .calibrated) && decide (lower < b.lower ∨ b.upper < upper ∨ b.peak < peak)) }

/-- The bands with one put into its slot, the ids rising. -/
def insertBand (b : Band) (bs : List Band) : List Band :=
  bs.filter (fun a => a.id < b.id) ++ b :: bs.filter (fun a => b.id < a.id)

/-- A band item's words are a valid band (R64). -/
def validBand (sdist : Nat) (ws : List Word) : Prop :=
  ws.length = 3 ∧ wordAt ws 0 < wordAt ws 1 ∧ wordAt ws 1 ≤ 1200 ∧ 1 ≤ wordAt ws 2 ∧ wordAt ws 2 ≤ 9999 ∧
  sdist + 30 ≤ wordAt ws 0

/-- The band of a band item's words in a slot. -/
def calibratedBand (n : Nat) (ws : List Word) : Band :=
  ⟨n, wordAt ws 0, wordAt ws 1, wordAt ws 2, .calibrated, 0, false, false⟩

/-- The table that a load of items 38 and 39 into an empty one gives (R64): each valid one in the lowest slot, two that overlap
merged into band 0, adjusted where it differs from item 38. -/
def State.bandsLoaded (s : State) : Prop :=
  let a := s.cls.inForce 38
  let b := s.cls.inForce 39
  let first := validBand s.sdist a
  let second := validBand s.sdist b
  let apart := wordAt a 1 < wordAt b 0 ∨ wordAt b 1 < wordAt a 0
  (¬ first → ¬ second → s.rbt.bands = []) ∧
  (first → ¬ second → s.rbt.bands = [calibratedBand 0 a]) ∧
  (¬ first → second → s.rbt.bands = [calibratedBand 0 b]) ∧
  (first → second → apart → s.rbt.bands = [calibratedBand 0 a, calibratedBand 1 b]) ∧
  (first → second → ¬ apart →
    let lower := min (wordAt a 0) (wordAt b 0)
    let upper := max (wordAt a 1) (wordAt b 1)
    let peak := max (wordAt a 2) (wordAt b 2)
    s.rbt.bands = [⟨0, lower, upper, peak, .calibrated, 0, false,
      decide (lower ≠ wordAt a 0 ∨ upper ≠ wordAt a 1 ∨ peak ≠ wordAt a 2)⟩])

/-! ### The store -/

/-- Every word is FFFFH (Table 10-2, note 1). -/
def allBlank (ws : List Word) : Prop := ∀ w ∈ ws, w = 0xFFFF#16

/-- The ranges of Tables 10-2 and 10-3, without the bounds against other items (log 20). -/
def wordsInRange (n : Nat) (ws : List Word) : Prop :=
  let v := wordAt ws 0
  let band := v < wordAt ws 1 ∧ wordAt ws 1 ≤ 1200 ∧ 1 ≤ wordAt ws 2 ∧ wordAt ws 2 ≤ 9999
  (n = 1 → 1 ≤ v ∧ v ≤ 14) ∧ (n = 2 → 400 ≤ v ∧ v ≤ 1200) ∧ (n = 3 → 200 ≤ v ∧ v ≤ 1500) ∧
  (n = 4 → v ≤ 255) ∧ (n = 5 → v ≤ 1) ∧ (n = 6 → ∀ w ∈ ws, w ≠ 0#16 ∧ w ≠ 0xFFFF#16) ∧
  (n = 10 → 5000 ≤ v ∧ v ≤ 40000) ∧ (n = 11 → 1000 ≤ v ∧ v ≤ 30000) ∧ (n = 12 → 1000 ≤ v ∧ v ≤ 20000) ∧
  (n = 13 → 2000 ≤ v ∧ v ≤ 25000) ∧ (n = 14 → 60 ≤ v ∧ v ≤ 150) ∧ (n = 15 → 100 ≤ v ∧ v ≤ 300) ∧
  (n = 16 → v ≤ 800) ∧ (n = 17 → v ≤ 800) ∧ (n = 18 → 20 ≤ v ∧ v ≤ 400) ∧ (n = 19 → 5 ≤ v ∧ v ≤ 200) ∧
  (n = 20 → 50 ≤ v ∧ v ≤ 1000) ∧ (n = 21 → 100 ≤ v ∧ v ≤ 2000) ∧ (n = 22 → 1 ≤ v ∧ v ≤ 2000) ∧
  (23 ≤ n → n ≤ 26 → 256 ≤ v ∧ v ≤ 768) ∧
  (n = 27 → 1 ≤ v ∧ v < wordAt ws 1 ∧ wordAt ws 1 < wordAt ws 2 ∧ wordAt ws 2 ≤ 30000) ∧ (n = 28 → v ≤ 1) ∧
  (30 ≤ n → n ≤ 33 → ∀ w ∈ ws, 1 ≤ w.toNat ∧ w.toNat ≤ 9999) ∧ (34 ≤ n → n ≤ 37 → ∀ w ∈ ws, w.toNat ≤ 255) ∧
  (n = 38 → band) ∧ (n = 39 → allBlank ws ∨ band)

/-- The cross checks of a write (R180, test 5) against the values in force. -/
def Cls.crossChecks (n : Nat) (ws : List Word) (c : Cls) : Prop :=
  let v := wordAt ws 0
  (n = 15 → v ≤ c.value 16) ∧ (n = 16 → c.value 15 ≤ v ∧ v < c.value 17) ∧ (n = 17 → c.value 16 < v) ∧
  (n = 14 → ∀ m, m = 38 ∨ m = 39 → allBlank (c.inForce m) ∨ v + 30 ≤ wordAt (c.inForce m) 0) ∧
  (n = 38 → c.value 14 + 30 ≤ v) ∧ (n = 39 → allBlank ws ∨ c.value 14 + 30 ≤ v)

/-- What R179 makes of an item at a load, by its stored words alone. -/
def Item.loadsAs (i k : Item) : Prop :=
  k.num = i.num ∧ k.stored = i.stored ∧ k.checkOk = i.checkOk ∧
  ∀ spec, specOf i.num = some spec →
    (k.source = .stored ↔ ¬ allBlank i.stored ∧ i.checkOk = true ∧ wordsInRange i.num i.stored) ∧
    (k.source = .blank ↔ allBlank i.stored ∧ (spec.fixed = true ∨ i.num = 39)) ∧
    k.held = if k.source = .stored then i.stored else spec.default

/-- The load of the store (R185): every item by R179, then Shold, Sinj_lo and Sinj_hi back to 150, 200 and 400 rpm with source FAULT
where they do not agree, and four items in force at their defaults while an item has source FAULT. The default of item 38 is formed
from Sdist, which is 60 rpm then, since the store is DEFAULTED. -/
def Cls.loadsAs (c d : Cls) : Prop :=
  (∃ items : List Item, List.Forall₂ Item.loadsAs c.items items ∧
    let value (n : Nat) : Nat := ((items.find? (fun k => k.num = n)).map (fun k => wordAt k.held 0)).getD 0
    let agree := value 15 ≤ value 16 ∧ value 16 < value 17
    (agree → d.items = items) ∧
    (¬ agree → d.items = items.map (fun k =>
      if k.num = 15 then { k with source := .fault, held := [150#16] }
      else if k.num = 16 then { k with source := .fault, held := [200#16] }
      else if k.num = 17 then { k with source := .fault, held := [400#16] }
      else k))) ∧
  (d.defaulted = true ↔ ∃ k ∈ d.items, k.source = .fault) ∧
  (d.defaulted = true → d.value 2 = 400 ∧ d.value 10 = 8000 ∧ d.value 11 = 4000 ∧ d.value 14 = 60) ∧
  (∀ k ∈ d.items, d.defaulted = false ∨ (k.num ≠ 2 ∧ k.num ≠ 10 ∧ k.num ≠ 11 ∧ k.num ≠ 14) → d.inForce k.num = k.held) ∧
  d.unlocked = false ∧ d.lockout = c.lockout ∧ d.programming = c.programming

/-! ### The consumers of a write -/

/-- The value in force of an item differs. -/
def State.changed (n : Nat) (s t : State) : Prop := s.cls.inForce n ≠ t.cls.inForce n

/-- CSM at a write (R18, R30, R31): a new rest offset makes the mean sag and the load mass anew, a new Ksag the load mass. -/
def State.samplerConsumes (s t : State) : Prop :=
  let offsets := s.changed 23 t ∨ s.changed 24 t ∨ s.changed 25 t ∨ s.changed 26 t
  let ok := s.csm.corners.toList.countP (fun c => c.channel = .ok)
  t.csm = { s.csm with meanSag := t.csm.meanSag, loadMass := t.csm.loadMass } ∧
  (offsets →
    (t.csm.meanSag.isSome = true ↔ s.csm.window.length = 8 ∧ 3 ≤ ok) ∧
    ∀ m, t.csm.meanSag = some m → isRounded (t.csm.sagTotal t.restOffsets) (8 * ok) m) ∧
  (¬ offsets → t.csm.meanSag = s.csm.meanSag) ∧
  (offsets ∨ s.changed 22 t →
    t.csm.loadMass = t.csm.meanSag.map (fun m => min 30000 ((m * t.ksag).tdiv 100).toNat)) ∧
  (¬ offsets → ¬ s.changed 22 t → t.csm.loadMass = s.csm.loadMass)

/-- IBE at a write (R53): a new table of the table class restarts the smoothing, and SPM takes the update that this, or a U_init in
use, brings. -/
def State.estimatorConsumes (s t : State) : Prop :=
  let tables := s.changed (30 + s.tableClass.val) t ∨ s.changed (34 + s.tableClass.val) t
  let gives := tables ∨ (s.changed 21 t ∧ s.ibe.uLast = none ∧ s.settled = false)
  (tables → t.ibe = { s.ibe with restartPending := true, settle := 0 }) ∧ (¬ tables → t.ibe = s.ibe) ∧
  (gives → t.spm.update = ⟨t.uEval, t.degraded, t.settled⟩) ∧ (¬ gives → t.spm.update = s.spm.update)

/-- The bands at a write of Sdist (R65). -/
def raisedBands (sdist : Nat) (bs : List Band) : List Band :=
  (bs.filter (fun b => sdist + 30 < b.upper)).map (fun b =>
    if b.lower < sdist + 30 then
      { b with lower := sdist + 30, adjusted := b.adjusted || decide (b.origin = .calibrated) }
    else b)

/-- What a band becomes that takes in a band item (R62). -/
def Band.takesItem (ws : List Word) (b : Band) : Band :=
  let lower := min b.lower (wordAt ws 0)
  let upper := max b.upper (wordAt ws 1)
  let peak := max b.peak (wordAt ws 2)
  { id := b.id, lower := lower, upper := upper, peak := peak, origin := .calibrated, hits := min 255 b.hits,
    pinned := false,
    adjusted := b.adjusted ||
      decide (if b.origin = .calibrated then lower ≠ b.lower ∨ upper ≠ b.upper ∨ peak ≠ b.peak
        else lower ≠ wordAt ws 0 ∨ upper ≠ wordAt ws 1 ∨ peak ≠ wordAt ws 2) }

/-- A full table gives up the LEARNED band with the highest lower edge, else the DECLARED one (R64). -/
def givesWay (d : Band) (bs : List Band) : Prop :=
  (d.origin = .learned ∨ (d.origin = .declared ∧ ∀ a ∈ bs, a.origin ≠ .learned)) ∧
  ∀ a ∈ bs, a.origin = d.origin → a.lower ≤ d.lower

/-- The load of a band item into a table (R64): a valid one goes into the lowest slot, displaces a band of a full table, or is
merged into the overlapped band with the lowest lower edge, which it covers whatever the merge chain does. -/
def itemLoads (sdist : Nat) (ws : List Word) (bs cs : List Band) (displaced : Bool) : Prop :=
  let hit (a : Band) := a.lower ≤ wordAt ws 1 ∧ wordAt ws 0 ≤ a.upper
  (¬ validBand sdist ws → cs = bs ∧ displaced = false) ∧
  (validBand sdist ws →
    ((∀ a ∈ bs, ¬ hit a) →
      (∀ n < 6, (∀ a ∈ bs, a.id ≠ n) → (∀ m < n, ∃ a ∈ bs, a.id = m) →
        cs = insertBand (calibratedBand n ws) bs ∧ displaced = false) ∧
      (bs.length = 6 → ∀ d ∈ bs, givesWay d bs →
        cs = insertBand (calibratedBand d.id ws) (bs.filter (fun a => a.id ≠ d.id)) ∧ displaced = true)) ∧
    (∀ b ∈ bs, hit b → (∀ a ∈ bs, hit a → b.lower ≤ a.lower) →
      let merged := b.takesItem ws
      displaced = false ∧ cs.length ≤ bs.length ∧
      (∃ a ∈ cs, a.lower ≤ merged.lower ∧ merged.upper ≤ a.upper ∧ merged.peak ≤ a.peak ∧ a.origin = .calibrated) ∧
      ((∀ a ∈ bs, a.id ≠ b.id → a.upper < merged.lower ∨ merged.upper < a.lower) →
        cs = bs.map (fun a => if a.id = b.id then merged else a))))

/-- RBT at a write (R65): a new Sdist raises the bands, a new band item has the CALIBRATED bands freed and both items loaded. -/
def State.bandsConsume (s t : State) : Prop :=
  let items := s.changed 38 t ∨ s.changed 39 t
  t.rbt.span = s.rbt.span ∧
  ∃ base, (s.changed 14 t → base = raisedBands t.sdist s.rbt.bands) ∧ (¬ s.changed 14 t → base = s.rbt.bands) ∧
    (¬ items → t.rbt.bands = base ∧ t.lkp.notices = s.lkp.notices) ∧
    (items → ∃ mid d e,
      itemLoads t.sdist (t.cls.inForce 38) (base.filter (fun b => b.origin ≠ .calibrated)) mid d ∧
      itemLoads t.sdist (t.cls.inForce 39) mid t.rbt.bands e ∧
      t.lkp.notices = { s.lkp.notices with bandOverflow := s.lkp.notices.bandOverflow || d || e })

/-- SPM at a write (R90, R94): a new Smax gives the records that are not over their targets. -/
def State.planConsumes (s t : State) : Prop :=
  t.spm.plan = s.spm.plan ∧ t.spm.guard = s.spm.guard ∧ t.spm.restartHold = s.spm.restartHold ∧
  t.spm.grant.speed = 0 ∧ t.ceilingFits t.spm.ceiling ∧
  (s.changed 2 t → t.spm.plateaus = s.spm.plateaus.map (fun p =>
    if p.isOver then p else { p with target := min p.requested t.smax, clamped := decide (t.smax < p.requested) })) ∧
  (¬ s.changed 2 t → t.spm.plateaus = s.spm.plateaus)

/-- Two adjacent WAITING orders of the same chamber and origin become one (R128). -/
def joins (q r : List Order) : Prop :=
  ∃ (front back : List Order) (a b : Order), q = front ++ a :: b :: back ∧ a.state = .waiting ∧ b.state = .waiting ∧
    a.chamber = b.chamber ∧ a.origin = b.origin ∧
    r = front ++ { a with requested := a.requested + b.requested, clamped := a.clamped || b.clamped } :: back

/-- The chambers with no mass above a capacity in g. -/
def loweredTo (capacity : Nat) (contents : Option (Four Nat)) : Option (Four Nat) :=
  contents.map (fun k => k.map (fun mg => if capacity < mg / 1000 then capacity * 1000 else mg))

/-- RIC at a write of the chamber capacity (R129, R148, in the order of log 16): contents lowered, and the orders of a chamber that
is then too full gone, the valve closed first where the head is among them, with a credit that leaves no mass above the capacity. -/
def State.capacityTakes (s t : State) : Prop :=
  let cap := t.capacity
  let lowered := loweredTo cap s.ric.contents
  let owed (j : Fin 4) := ((s.ric.queue.filter (fun o => o.chamber = j)).map (fun o => o.requested - o.delivered / 1000)).sum
  let full (j : Fin 4) := lowered.any (fun k => cap < k.get j / 1000 + owed j)
  let left := s.ric.queue.filter (fun o => !full o.chamber)
  Relation.ReflTransGen joins left t.ric.queue ∧ (∀ q, ¬ joins t.ric.queue q) ∧
  t.ric = { s.ric with
    queue := t.ric.queue, contents := t.ric.contents, opening := t.ric.opening, bound := t.ric.bound,
    flush := s.ric.flush && !t.ric.queue.isEmpty } ∧
  ((∀ h, s.ric.queue.head? = some h → full h.chamber = false) →
    t.ric.contents = lowered ∧ t.ric.opening = s.ric.opening ∧ t.ric.bound = s.ric.bound) ∧
  (∀ h, s.ric.queue.head? = some h → full h.chamber = true →
    t.ric.contents = loweredTo cap (creditedTo h (s.ric.waterSoFar t.capture) lowered) ∧ t.ric.opening = none ∧
    (t.ric.queue ≠ [] → t.ric.bound = t.capture))

/-- RIC at a write (R148): each of its items has its own effect, every other write none. -/
def State.ringConsumes (s t : State) : Prop :=
  (s.changed 3 t → s.capacityTakes t) ∧
  (s.changed 5 t → t.ric = { s.ric with windows := [] }) ∧
  (s.changed 15 t →
    t.ric = { s.ric with bleedTimer := t.ric.bleedTimer, unknownTimer := t.ric.unknownTimer } ∧
    s.timersFollow t.time t) ∧
  (s.changed 16 t ∨ s.changed 17 t → s.ringFollows t) ∧
  (¬ s.changed 3 t → ¬ s.changed 5 t → ¬ s.changed 15 t → ¬ s.changed 16 t → ¬ s.changed 17 t → t.ric = s.ric)

/-- What the consumers of a taken write make of it, each by the items whose values in force it changed (log 17); RTB takes a new
index edge while TURNING (R4). -/
def State.consumes (s t : State) : Prop :=
  (s.changed 5 t → s.rtb.speedState = .turning →
    t.rtb = { s.rtb with pPrev := none, revolution := .unscheduled }) ∧
  (¬ s.changed 5 t ∨ s.rtb.speedState = .stopped → t.rtb = s.rtb) ∧
  s.samplerConsumes t ∧ s.estimatorConsumes t ∧ (s.bandsSafe = true → s.bandsConsume t) ∧ s.planConsumes t ∧
  (s.ringSafe = true → s.ringConsumes t)

/-! ### Automatic orders -/

/-- The grams that a chamber can still take for a queue (R129). -/
def gramsOfRoom (capacity : Nat) (contents : Four Nat) (q : List Order) (j : Fin 4) : Nat :=
  capacity - contents.get j / 1000 - ((q.filter (fun o => o.chamber = j)).map (fun o => o.requested - o.delivered / 1000)).sum

/-- The order that a mass makes of a posting, if it is placed (R136). -/
def orderFor (room : Nat) (j : Fin 4) (mass : Nat) (q : List Order) : List Order :=
  if mass < 10 ∨ room = 0 ∨ q.length = 8 then [] else [⟨j, min mass room, 0, .auto, .waiting, room < mass⟩]

/-- RIC posts for an imbalance u at an angle, the queue before being q (R135, R136). -/
def State.posts (u angle now : Nat) (contents : Four Nat) (q : List Order) (s t : State) : Prop :=
  let from32 := ((angle + 128) % 256 + 224) % 256
  ∃ j k : Fin 4, j.val = from32 / 64 ∧ k.val = (j.val + 1) % 4 ∧
    let delta := from32 % 64
    let first := gramsOfRoom s.capacity contents q j
    let second := gramsOfRoom s.capacity contents q k
    let placed := q ++ orderFor first j ((u * qt (64 - delta) + 512) / 1024) q
    let all := placed ++ orderFor second k ((u * qt delta + 512) / 1024) placed
    (first = 0 → second = 0 → t.ric.queue = q ∧ t.lkp.notices.ringExhausted = true) ∧
    (¬(first = 0 ∧ second = 0) → t.ric.queue = all ∧ t.lkp.notices.ringExhausted = s.lkp.notices.ringExhausted) ∧
    (q = [] → all ≠ [] → t.ric.bound = now % 16777216) ∧ (all ≠ q → t.ibe.ringQuiet = 0)

/-! ### Requests -/

/-- A request with this address on this port is handed to its owner if its form and rights allow: no reset, part RUN, nothing in
progress on the port, and on the cycle port the node address (R165, R166, R167). -/
def State.ready (p : Port) (a : Byte) (s : State) : Prop :=
  s.inReset = false ∧ s.lkp.part = .run ∧ (s.portOf p).inProgress = none ∧
  (p = .cycle → s.cls.value 1 = a.toNat)

/-- What a request finds: the time has passed and its port's receive frame is empty. -/
def State.taking (after : Nat) (p : Port) (s : State) : State := (s.elapse after).clearRx p

/-- An answer is being sent on a port. -/
def State.replying (p : Port) (c : Caller) (a : Answer) (s : State) : State :=
  s.setPort p { s.portOf p with inProgress := some ⟨c, some a, false⟩ }

/-- The answer being sent on a port, if one is. -/
def State.reply (p : Port) (s : State) : Option Answer := (s.portOf p).inProgress.bind InProgress.answer

/-- A cycle-port request of n parameters that its owner takes. -/
def State.takes (s : State) (n : Nat) (r : Request) : Prop :=
  r.port = .cycle ∧ r.params.length = n ∧ s.ready .cycle r.addr

/-- A cycle-port command of n parameters that its owner takes. -/
def State.takesCommand (s : State) (n : Nat) (r : CommandRequest) : Prop :=
  r.port = .cycle ∧ r.params.length = n ∧ s.ready .cycle r.addr

/-- The request is answered on the cycle port and changes nothing else. -/
def State.justAnswers (after : Nat) (c : Caller) (o : Outcome) (ws : List Word) (s : State) :
    Host.Outcome State Fault Refusal :=
  .next ((s.taking after .cycle).replying .cycle c ⟨o, ws⟩)

/-- Everything a request of the plan may not touch: RTB, CSM, TMO, the store, the pins and the resets. -/
def State.sameSensing (s t : State) : Prop :=
  t.rtb = s.rtb ∧ t.csm = s.csm ∧ t.tmo = s.tmo ∧ t.cls = s.cls ∧ t.strikePin = s.strikePin ∧
  t.lidPin = s.lidPin ∧ t.rst = s.rst ∧ t.startUp = s.startUp ∧ t.pending = s.pending

/-- What the running of the plan leaves alone: RTB, CSM, IBE, TMO, the store, the pins, the guard level, the restart hold and
the part state; the band table while no learning span is open, and of a ring with the right frozen flag all but what a thaw does,
which only a plan PAUSED by a trip or by the lid can bring. -/
def State.planFrame (s t : State) : Prop :=
  s.sameSensing t ∧ t.ibe = s.ibe ∧ t.spm.guard = s.spm.guard ∧ t.spm.restartHold = s.spm.restartHold ∧
  t.lkp.part = s.lkp.part ∧ (s.rbt.span = none → t.rbt = s.rbt) ∧
  (s.ringSafe = true →
    s.ringFollows t ∧ (s.spm.plan ≠ .paused .trip → s.spm.plan ≠ .paused .lid → t.ric = s.ric))

/-- The end of a plateau whose record is then p (R99, R103, R105, R118): p takes its final state with all else kept, PLATEAU_END
is posted, and the first QUEUED record is ACTIVE with no dwell elapsed, RAMPING in a RUNNING plan and HELD in a PAUSED one, or
with none left the plan is COMPLETE with a grant of 0. Every other record stays. -/
def State.plateauEnds (p : Plateau) (final : PlateauState) (s t : State) : Prop :=
  let ended (r : Plateau) : Plateau := if r.slot = p.slot then { p with state := final } else r
  t.lkp.notices.plateauEnd = true ∧
  match s.spm.plateaus.find? Plateau.isQueued with
  | none =>
    t.spm.plateaus = s.spm.plateaus.map ended ∧ t.spm.plan = .complete ∧ t.spm.grant.speed = 0 ∧
    t.spm.derived = none ∧ t.active = none ∧ t.spm.dwellTimer = none ∧ t.lkp.notices.planState = true
  | some n =>
    ∃ q, t.active = some q ∧
      q = { n with state := q.state, elapsed := some 0, derated := q.derated, bandAdjusted := q.bandAdjusted } ∧
      t.spm.plateaus = s.spm.plateaus.map (fun r => if r.slot = n.slot then q else ended r) ∧
      (s.spm.plan ≠ .running →
        t.spm.plan = s.spm.plan ∧ q.state = .active .held ∧ q.derated = n.derated ∧ q.bandAdjusted = n.bandAdjusted) ∧
      (s.spm.plan = .running →
        (n.derated = true → q.derated = true) ∧ (n.bandAdjusted = true → q.bandAdjusted = true) ∧
        ((t.spm.plan = .paused .rebalance ∧ q.state = .active .held) ∨
          (t.spm.plan = .running ∧
            (q.state = .active .ramping ∨
              (q.state = .active .dwelling ∧ t.spm.grant.speed = 0 ∧ s.rtb.atRest = true)))))

/-- The verdict of Table 1-5 for a closing revolution: the reference period in force during it, the slots issued in it, and
its period. -/
def verdictFits (pPrev : Option Nat) (issued p : Nat) (v : Verdict) : Prop :=
  match pPrev with
  | none => v = .first
  | some q =>
    (1000000 < q → v = .unscheduled) ∧ (q ≤ 1000000 → issued < 32 → v = .short) ∧
    (q ≤ 1000000 → 32 ≤ issued → (q : Int) < 8 * |(p : Int) - q| → v = .unsteady) ∧
    (q ≤ 1000000 → 32 ≤ issued → 8 * |(p : Int) - q| ≤ q → v = .accepted)

/-- Every block stands as a reset in force leaves it (R16, R33, R59, R76, R123, R149, R163, R178). -/
def State.heldByReset (t : State) : Prop :=
  t.rtb = Rtb.held ∧ t.csm = Csm.held ∧ t.ibe = Ibe.held ∧ t.rbt = Rbt.held ∧ t.ric = Ric.held ∧ t.tmo = Tmo.held ∧
  t.startUp = none ∧ t.spm.plan = .empty ∧ t.spm.plateaus = [] ∧ t.spm.grant.speed = 0 ∧ t.spm.grant.ramp = .brake ∧
  t.spm.grant.reason = .restart ∧ t.spm.restartHold = true ∧ t.lkp.image = t.spm.grant ∧ t.lkp.part = .starting ∧
  t.lkp.cycle = PortState.idle ∧ t.lkp.drive = PortState.idle ∧ t.lkp.notices = NoticeSet.empty ∧
  t.lkp.driveAtn = true ∧ t.lkp.quietTimer = none ∧ t.lkp.wakeTimer = none ∧ t.cls.unlocked = false ∧
  t.cls.programming = none

/-! ### Frames as bytes -/

/-- The bytes of a request frame (Table 11-1). -/
def frameBytes (f : Frame) : List Byte :=
  let body := [f.addr, f.kind, f.cls, BitVec.ofNat 8 f.params.length] ++ wordBytes f.key ++ f.params.flatMap wordBytes
  body ++ wordBytes (checkOf body)

/-- The frame that a request row is the receipt of, and the time before it. -/
def requestFrame (i : Instr) : Option (Nat × Frame) :=
  match i with
  | .lookupPlan after r => some (after, frameOf 1#8 1#8 r)
  | .lookupPlateau after r => some (after, frameOf 1#8 2#8 r)
  | .lookupGrant after r => some (after, frameOf 1#8 3#8 r)
  | .lookupEstimate after r => some (after, frameOf 1#8 4#8 r)
  | .lookupEstimateDelayed after r => some (after, frameOf 1#8 4#8 r)
  | .lookupBand after r => some (after, frameOf 1#8 5#8 r)
  | .lookupChamber after r => some (after, frameOf 1#8 6#8 r)
  | .lookupQueue after r => some (after, frameOf 1#8 7#8 r)
  | .lookupLoad after r => some (after, frameOf 1#8 8#8 r)
  | .lookupStatus after r => some (after, frameOf 1#8 9#8 r)
  | .lookupCal after r => some (after, frameOf 1#8 10#8 r)
  | .append after r => some (after, frameOf 2#8 2#8 r)
  | .amendPlateau after r => some (after, frameOf 3#8 2#8 r)
  | .amendLoad after r => some (after, frameOf 3#8 8#8 r)
  | .withdraw after r => some (after, frameOf 4#8 2#8 r)
  | .retirePlateau after r => some (after, frameOf 5#8 2#8 r)
  | .retireBand after r => some (after, frameOf 5#8 5#8 r)
  | .start after r => some (after, commandFrame 1#8 1#16 r)
  | .pause after r => some (after, commandFrame 1#8 2#16 r)
  | .resume after r => some (after, commandFrame 1#8 3#16 r)
  | .next after r => some (after, commandFrame 1#8 4#16 r)
  | .abort after r => some (after, commandFrame 1#8 5#16 r)
  | .clear after r => some (after, commandFrame 1#8 6#16 r)
  | .clearTrip after r => some (after, commandFrame 9#8 7#16 r)
  | .flush after r => some (after, commandFrame 7#8 8#16 r)
  | .cancel after r => some (after, commandFrame 7#8 9#16 r)
  | .guard after r => some (after, commandFrame 9#8 10#16 r)
  | .quiet after r => some (after, commandFrame 9#8 11#16 r)
  | .lock after r => some (after, commandFrame 10#8 12#16 r)
  | .reset after r => some (after, commandFrame 9#8 13#16 r)
  | .inject after r => some (after, frameOf 7#8 7#8 r)
  | .declare after r => some (after, frameOf 8#8 5#8 r)
  | .pin after r => some (after, frameOf 9#8 5#8 r)
  | .calWrite after r => some (after, frameOf 10#8 10#8 r)
  | .keyVerify after r => some (after, frameOf 11#8 10#8 r)
  | _ => none

/-- A command by which a whole frame is received `after` µs after the one before: its request row, or its last character with the
others received in time (log 9). A frame may be of any kind and class. -/
def receives (i : Instr) (after : Nat) (f : Frame) (s : State) : Prop :=
  (requestFrame i = some (after, f) ∧ i.wellFormed = true) ∨
  (f.params.length ≤ 16 ∧ ∃ bytes b, frameBytes f = bytes ++ [b] ∧ i = .characterReceived after f.port b true ∧
    (s.portOf f.port).rx.bytes = bytes ∧ (s.portOf f.port).rx.skipping = false ∧
    (s.time + after - (s.portOf f.port).rx.lastEnd) * 12 ≤ 63125)

end Sys2Proof.Machine
end

