-- ==== Sys2Proof/Certificates/Slice0/Obligations.lean ====
section
/-! DEFINITION. The statements for the provers. -/

open Sys2Proof Sys2Proof.Machine

/-! ### The step -/

/-- A step takes the command at the front of the queue and leaves the rest waiting. -/
def Obligations.StepTakesFrontCommand : Prop :=
  ∀ (c : Instr) (rest : List Instr) (s : State), s.pending = c :: rest →
    step s = exec c { s with pending := rest }

/-- With nothing waiting, a step lets one microsecond pass (the model's choice, log 1). -/
def Obligations.StepOnEmptyQueueIdles : Prop :=
  ∀ s : State, s.pending = [] → step s = .next { s with time := s.time + 1 }

/-- No command stops the part, and none touches the commands that wait behind it. -/
def Obligations.EveryCommandAnswersNext : Prop :=
  ∀ (c : Instr) (s : State), ∃ t, exec c s = .next t ∧ t.pending = s.pending

/-! ### Resets and start-up -/

/-- The state after reset: start-up running from the load, every block at its values of Tables 1-6, 2-7, 3-6, 6-12, 7-10, 8-3
and 9-7, a new part's store DEFAULTED at its defaults (log 2). -/
def Obligations.ResetStateIsAsSpecified : Prop :=
  State.reset.inReset = false ∧ State.reset.startUp = some 20000 ∧ State.reset.lkp.part = .starting ∧
  State.reset.rtb.speedState = .stopped ∧ State.reset.rtb.atRest = false ∧ State.reset.rtb.restTimer = some 3000000 ∧
  State.reset.rtb.lastCompletion = none ∧ State.reset.csm.meanSag = none ∧ State.reset.csm.loadMass = none ∧
  State.reset.ibe.est = .idle ∧ State.reset.ibe.uLast = none ∧ State.reset.uEval = 1000 ∧ State.reset.tableClass = 2 ∧
  State.reset.spm.plan = .empty ∧ State.reset.spm.plateaus = [] ∧ State.reset.spm.guard = .tight ∧
  State.reset.spm.restartHold = true ∧
  State.reset.spm.grant = ⟨0, .brake, ⟨70, .band, some 0⟩, none, .restart⟩ ∧
  State.reset.lkp.image = State.reset.spm.grant ∧ State.reset.lkp.driveAtn = true ∧ State.reset.tripLine = true ∧
  State.reset.valveLine = false ∧ State.reset.ric.contents = none ∧ State.reset.ric.queue = [] ∧
  State.reset.ric.frozen = true ∧ State.reset.ric.bleedTimer = some 100000 ∧
  State.reset.ric.unknownTimer = some 30000000 ∧ State.reset.tmo = Tmo.held ∧
  State.reset.rbt.bands = [⟨0, 90, 390, 9999, .calibrated, 0, false, false⟩] ∧
  State.reset.cls.defaulted = true ∧ State.reset.cls.unlocked = false ∧ State.reset.cls.value 1 = 1 ∧
  State.reset.smax = 400 ∧ State.reset.sdist = 60 ∧ State.reset.kf = 8000 ∧ State.reset.lcross = 4000 ∧
  State.reset.pending = []

/-- A reset begins: POWER_ON for 10 ms, RESET_N while asserted; every block is held, TRIP is asserted and VALVE negated, and
only a power-on clears the key lockout. That every block stands at its values while a reset is in force, and that the pins and the
time in force of another reset stay, is log 10. A programming that is cut off leaves its item's words as far as they were reached,
and a check code that matches only past the last word (log 6). RESET_N asserted again changes nothing. -/
def Obligations.ResetsHoldEveryBlock : Prop :=
  ∀ (after reached : Nat) (s : State),
    let cut (t : State) : Prop :=
      (s.cls.programming = none → t.cls.items = s.cls.items) ∧
      ∀ p, s.cls.programming = some p → t.cls.items = s.cls.items.map (fun i =>
        if i.num = p.item then
          { i with
            stored := p.words.take reached ++ List.replicate (p.words.length - reached) 0xFFFF#16
            checkOk := decide (p.words.length < reached) }
        else i)
    (∃ t, exec (.powerOn after reached) s = .next t ∧ t.heldByReset ∧
      t.rst = ⟨some (s.time + after + 10000), s.rst.resetN⟩ ∧ t.cls.lockout = false ∧ t.tripLine = true ∧
      t.valveLine = false ∧ t.capture = 0 ∧ t.strikePin = s.strikePin ∧ t.lidPin = s.lidPin ∧ cut t) ∧
    (s.rst.resetN = false →
      ∃ t, exec (.resetNAsserted after reached) s = .next t ∧ t.heldByReset ∧
        t.rst = ⟨s.rst.timer, true⟩ ∧ t.cls.lockout = s.cls.lockout ∧ t.tripLine = true ∧
        t.valveLine = false ∧ t.capture = 0 ∧ t.strikePin = s.strikePin ∧ t.lidPin = s.lidPin ∧ cut t) ∧
    (s.rst.resetN = true →
      exec (.resetNAsserted after reached) s = .next { s with time := s.time + after })

/-- The end of the last reset in force, whichever command brings it: time starts from 0, the timers start, the store is loaded
(each item's source and value by R179, with the re-test of R185), the calibrated bands come into an empty table, the first ceiling
is computed from U_init, and start-up runs with the part STARTING and reason RESTART (log 30). That a reset which ends while another
is in force brings no load, and that time starts at the end of the last one, is log 10; that the load tests items 16, 17, 38 and 39
by their absolute ranges alone is log 20, and the term of a ceiling at a C of 1200 log 34. -/
def Obligations.EndOfResetLoadsAndStarts : Prop :=
  ∀ (after τ : Nat) (s : State),
    (s.rst = ⟨some τ, true⟩ →
      exec .resetTimerExpiry s = .next { s with time := max s.time τ, rst := ⟨none, true⟩ } ∧
      exec (.resetNNegated after) s = .next { s with time := s.time + after, rst := ⟨some τ, false⟩ }) ∧
    (s.rst = ⟨some τ, false⟩ →
      exec .resetTimerExpiry s = .next { s with time := max s.time τ, rst := ⟨none, false⟩ }.endReset) ∧
    (s.rst = ⟨none, true⟩ → exec (.resetNNegated after) s = .next (s.elapse after).endReset) ∧
    (let t := s.endReset;
      t.time = 0 ∧ t.rst = ⟨none, false⟩ ∧ t.startUp = some 20000 ∧
      t.rtb = { Rtb.held with restTimer := some 3000000 } ∧ t.csm = Csm.held ∧ t.ibe = Ibe.held ∧
      t.ric = { Ric.held with bleedTimer := some 100000, unknownTimer := some 30000000 } ∧
      t.tmo = { Tmo.held with
        strikeTimer := if s.strikePin then some 10000 else none,
        lidTimer := if s.lidPin then some 10000 else none } ∧
      t.cls = s.cls.load ∧ t.cls.unlocked = false ∧ t.cls.lockout = s.cls.lockout ∧
      t.spm.plan = .empty ∧ t.spm.plateaus = [] ∧ t.spm.guard = t.defaultGuard ∧
      (s.cls.storeFits = true → s.cls.loadsAs t.cls) ∧ t.bandsLoaded ∧ t.rbt.span = none ∧
      t.spm.update = ⟨t.uInit, false, false⟩ ∧ t.ceilingFits t.spm.ceiling ∧
      t.spm.grant = ⟨0, .brake, t.spm.ceiling, none, .restart⟩ ∧ t.lkp.image = t.spm.grant ∧
      t.lkp.part = .starting ∧ t.lkp.driveAtn = true ∧ t.lkp.cycle = PortState.idle ∧
      t.lkp.drive = PortState.idle ∧ t.lkp.notices.calFault = t.cls.defaulted ∧ t.lkp.notices.restart = false)

/-- 20 ms after the load the part becomes RUN and RESTART is posted; TRIP stays only with the latch, below 30 rpm static sampling
starts, and the freeze is tested. -/
def Obligations.StartUpEndsInRun : Prop :=
  ∀ (τ : Nat) (s : State), s.startUp = some τ → s.inReset = false → s.lkp.part = .starting →
    ∃ t, exec .endOfStartUp s = .next t ∧ t.lkp.part = .run ∧ t.startUp = none ∧ t.lkp.notices.restart = true ∧
      t.tripLine = s.tripped ∧ t.rtb = s.rtb ∧ t.tmo = s.tmo ∧ t.ibe = s.ibe ∧ t.cls = s.cls ∧
      t.time = max s.time τ ∧ (s.ringSafe = true → s.ringFollows t) ∧
      (s.rpm < 30 → t.csm = { s.csm with staticTimer := some (t.time + 100000) }) ∧
      (30 ≤ s.rpm → t.csm = s.csm) ∧
      (s.spm.restartHold = true → t.spm.grant.speed = 0)

/-! ### Rotation and sampling -/

/-- An edge of the other direction, or one less than 20 ms after the last taken edge, changes nothing (R3). -/
def Obligations.NoiseEdgesAreIgnored : Prop :=
  ∀ (after : Nat) (rising : Bool) (order : List Taker) (s : State), s.inReset = false →
    (rising ≠ s.risingSelected ∨
      (∃ l, s.rtb.lastIndex = some l ∧ sub24 (s.elapse after).capture l < 20000)) →
    exec (.indexEdge after rising order) s = .next (s.elapse after)

/-- The first edge of a run forms no period: it sets the last index time, restarts the rest timer and ends at-rest. The grant record
is evaluated again and then shows the slot of the active plateau, the ramp class of R116 and the reason of Table 6-11 (logs 12 and
26, in STARTING log 30); a record that changes reaches the grant image and raises drive attention. Nothing else changes, where the
grant is safe and the plan current, as every step leaves them. -/
def Obligations.FirstEdgeOpensARun : Prop :=
  ∀ (after : Nat) (order : List Taker) (s : State), s.inReset = false → s.rtb.lastIndex = none →
    ∃ t, exec (.indexEdge after s.risingSelected order) s = .next t ∧
      t.rtb = { s.rtb with
        lastIndex := some ((s.time + after) % 16777216), runEdges := 1,
        restTimer := some (s.time + after + 3000000), atRest := false, overdue := none,
        revolution := .unscheduled } ∧
      t.csm = s.csm ∧ t.ibe = s.ibe ∧ t.rbt = s.rbt ∧ t.ric = s.ric ∧ t.tmo = s.tmo ∧ t.cls = s.cls ∧
      t.time = s.time + after ∧ t.rst = s.rst ∧ t.startUp = s.startUp ∧ t.strikePin = s.strikePin ∧
      t.lidPin = s.lidPin ∧ t.pending = s.pending ∧
      t.lkp = (if t.spm.grant = s.spm.grant then s.lkp
        else { s.lkp with image := t.spm.grant, driveAtn := true }) ∧
      t.recordShown ∧ t.spm.grant.ceiling = s.spm.ceiling ∧
      t.spm = { s.spm with
        grant := t.spm.grant, arrival := t.spm.arrival, inWindow := t.spm.inWindow, dwellTimer := t.spm.dwellTimer } ∧
      (s.grantSafe = true → s.planCurrent = true →
        t.spm = { s.spm with grant := t.spm.grant } ∧ t.spm.grant.speed = s.spm.grant.speed)

/-- A later edge closes the revolution. RTB forms the period and the measured speed, gives the verdict of Table 1-5, becomes
TURNING, opens the next revolution and arms the overdue window from 60 rpm up; slot 0 of that revolution is still to be issued, by
a SLOT_EVENT of the same instant (log 8). CSM observes the channels of a full revolution and attaches the corner vectors, IBE
makes its estimate, RIC computes the window set, TMO tests for ORBIT, SENSORS and OVERSPEED, SPM tests for arrival and RBT for
learning, whatever the order of the blocks (log 4). LKP takes an entry into TURNING, the bleed and unknown timers follow the
speed, the dwell tick timer its conditions, and the orders and chambers only the freeze (logs 15 and 27) and an automatic posting.
The counted speed of an INVALID revolution is log 24. -/
def Obligations.ClosingEdgeIssuesACompletion : Prop :=
  ∀ (after l : Nat) (order : List Taker) (s : State), s.inReset = false → s.rtb.lastIndex = some l →
    20000 ≤ sub24 (s.elapse after).capture l →
    ∃ t p v report, exec (.indexEdge after s.risingSelected order) s = .next t ∧
      p = sub24 (s.elapse after).capture l ∧ verdictFits s.rtb.pPrev s.rtb.revolution.issued p v ∧
      let now := s.time + after
      let measured := if p ≤ 50000 then 12000 else 600000000 / p
      let speed := measured / 10
      let accepted := decide (v = .accepted)
      let counted := 60 ≤ speed ∧ accepted = true ∧ s.csm.conversions = 32 ∧
        3 ≤ report.toList.countP (fun e => e.channel = .ok)
      t.rtb =
        { lastIndex := some (now % 16777216), runEdges := min 2 (s.rtb.runEdges + 1), p := some p, pPrev := some p,
          measured := measured, speedState := .turning, atRest := false, restTimer := some (now + 3000000),
          revolution := if p ≤ 1000000 then .scheduled 0 else .unscheduled,
          overdue := if 600 ≤ measured then some (now + max (2 * p) 500000) else none,
          lastCompletion := some v } ∧
      s.samplerTakes accepted now speed report t ∧
      t.ric.windows = [0, 1, 2, 3].map (s.windowFor now p) ∧
      t.spm.inWindow = decide (|(speed : Int) - t.spm.grant.speed| ≤ 15) ∧
      (s.ringSafe = true → s.estimatorTakes accepted now speed report t) ∧
      (s.causesConsistent = true → s.tripsTake accepted p speed report t) ∧
      (s.rtb.speedState = .turning ∨ s.lkp.part = .run →
        s.learningTakes counted speed t ∧
        (s.spm.plan = .running → s.activePhase = some .ramping → s.rbt.span = none → t.spm.plan = .running →
          s.arrivalTakes accepted speed t)) ∧
      s.turningTakes now t ∧ (s.planConsistent = true → s.rbt.span = none → s.dwellTakes now t) ∧
      (s.ringSafe = true → s.ringTakes now t) ∧
      t.cls = s.cls ∧ t.strikePin = s.strikePin ∧ t.lidPin = s.lidPin

/-- The next slot of a scheduled revolution is issued at its due time, and CSM adds each corner's weighted sample to its sums and
counts it, in the part states in which it converts; nothing else changes. -/
def Obligations.SlotAddsTheHarmonicSums : Prop :=
  ∀ (codes : Four Code) (k l p : Nat) (s : State),
    s.rtb.revolution = .scheduled k → k < 32 → s.rtb.lastIndex = some l → s.rtb.pPrev = some p →
    ∃ t, exec (.slotEvent codes) s = .next t ∧
      t.time = s.time + s.ahead ((l + k * p / 32) % 16777216) ∧
      t.rtb = { s.rtb with revolution := .scheduled (k + 1) } ∧
      t.ibe = s.ibe ∧ t.rbt = s.rbt ∧ t.spm = s.spm ∧ t.ric = s.ric ∧ t.tmo = s.tmo ∧ t.lkp = s.lkp ∧ t.cls = s.cls ∧
      t.csm.window = s.csm.window ∧ t.csm.staticTimer = s.csm.staticTimer ∧ t.csm.meanSag = s.csm.meanSag ∧
      t.csm.loadMass = s.csm.loadMass ∧ t.csm.quietRef = s.csm.quietRef ∧
      (s.lkp.part = .starting ∨ s.lkp.part = .quiet → t.csm = s.csm) ∧
      (s.lkp.part ≠ .starting → s.lkp.part ≠ .quiet →
        t.csm.conversions = s.csm.conversions + 1 ∧
        ∀ j : Fin 4,
          let c := s.csm.corners.get j
          let d := t.csm.corners.get j
          let code := (codes.get j).toNat
          d.iSum = c.iSum + ((code : Int) - s.restOffsets.get j) * ct k ∧
          d.qSum = c.qSum + ((code : Int) - s.restOffsets.get j) * ct (k + 24) ∧
          d.clipped = c.clipped + (if code = 0 ∨ code = 1023 then 1 else 0) ∧
          d.outOfWindow = c.outOfWindow + (if code < 8 ∨ 1015 < code then 1 else 0) ∧
          d.channel = c.channel ∧ d.streak = c.streak)

/-- The rest timer's running out ends the run: STOPPED, speed 0, at rest, the estimate IDLE with settle count 0, restart hold
off, the window set and the overspeed count gone. A grant of 0 is reached, and an open learning span closes: with 3 anomalous
revolutions its candidate is merged into the near band with the lowest lower edge, placed in the lowest FREE slot, or dropped. The
queue is frozen as R144 says (logs 15 and 27), and the bleed and unknown timers follow the speed of 0. -/
def Obligations.StandstillEndsTheRun : Prop :=
  ∀ (order : List Taker) (τ : Nat) (s : State), s.rtb.restTimer = some τ → s.inReset = false →
    ∃ t, exec (.restTimerExpiry order) s = .next t ∧
      t.rtb =
        { lastIndex := none, runEdges := 0, p := none, pPrev := none, measured := 0, speedState := .stopped,
          atRest := true, restTimer := none, revolution := .none, overdue := none, lastCompletion := none } ∧
      t.ibe.est = .idle ∧ t.ibe.settle = 0 ∧ t.ibe.uLast = s.ibe.uLast ∧ t.spm.restartHold = false ∧
      t.ric.windows = [] ∧ t.tmo.overspeed = 0 ∧ t.csm.conversions = 0 ∧
      (s.lkp.part ≠ .starting → t.csm.staticTimer.isSome = true) ∧ t.cls = s.cls ∧ t.time = max s.time τ ∧
      (t.spm.plan = .running → t.spm.grant.speed = 0 → t.activePhase ≠ some .ramping) ∧
      (s.ringSafe = true → t.ric.frozen = true ∧ s.ric.ordersFollow t.capture t.ric ∧ s.timersFollow t.time t) ∧
      (s.rbt.span = none → t.rbt = s.rbt) ∧
      (∀ p, s.rbt.span = some p → t.rbt.span = none ∧
        let lower := p.low - 10
        let upper := min (p.high + 10) 1200
        let near (b : Band) := b.lower ≤ upper + 20 ∧ lower ≤ b.upper + 20
        (p.count < 3 → t.rbt.bands = s.rbt.bands) ∧
        (3 ≤ p.count → s.bandsSafe = true →
          ((∀ b ∈ s.rbt.bands, ¬ near b) → s.rbt.bands.length = 6 →
            t.rbt.bands = s.rbt.bands ∧ t.lkp.notices.bandOverflow = true) ∧
          (∀ n, n < 6 → (∀ b ∈ s.rbt.bands, ¬ near b ∧ b.id ≠ n) → (∀ m < n, ∃ b ∈ s.rbt.bands, b.id = m) →
            t.rbt.bands = insertBand ⟨n, lower, upper, p.peak, .learned, 0, false, false⟩ s.rbt.bands ∧
            t.lkp.notices.bandLearned = true) ∧
          (∀ b ∈ s.rbt.bands, near b → (∀ a ∈ s.rbt.bands, near a → b.lower ≤ a.lower) →
            let merged := b.takesIn lower upper p.peak .learned
            t.lkp.notices.bandLearned = true ∧ t.rbt.bands.length ≤ s.rbt.bands.length ∧
            ((∀ a ∈ s.rbt.bands, a.id ≠ b.id → a.upper < merged.lower ∨ merged.upper < a.lower) →
              t.rbt.bands = s.rbt.bands.map (fun a => if a.id = b.id then merged else a)))))

/-- An index that stays away past its overdue window trips the part with TACH_LOST: the latch is set, TRIP asserted and the
grant 0; RTB changes nothing but the window, and the queue is frozen as R144 says (logs 15 and 27). -/
def Obligations.OverdueIndexTrips : Prop :=
  ∀ (τ : Nat) (s : State), s.rtb.overdue = some τ → s.inReset = false → s.causesConsistent = true → s.grantSafe = true →
    ∃ t, exec .indexOverdue s = .next t ∧ t.rtb = { s.rtb with overdue := none } ∧
      t.tmo.first = some (s.tmo.first.getD .tachLost) ∧ t.tmo.causes = s.tmo.causes.add .tachLost ∧
      t.tripLine = true ∧ t.spm.grant.speed = 0 ∧ (s.ringSafe = true → t.ric.frozen = true ∧ s.ringFollows t) ∧
      (s.tmo.causes.has .tachLost = false → t.lkp.notices.trip = true) ∧ t.cls = s.cls

/-- A static sample joins the window, its oldest entry leaving a full one, each channel is observed, and the mean sag is valid
exactly with 8 entries and 3 OK corners; the timer starts again. Outside QUIET nothing but CSM changes. In QUIET the first valid
mean becomes the reference, and a mean more than 2000 µm from it wakes the part, which then samples at the fast rate (log 35). -/
def Obligations.StaticSampleJoinsTheWindow : Prop :=
  ∀ (codes : Four Code) (τ : Nat) (s : State), s.csm.staticTimer = some τ → s.inReset = false →
    ∃ t, exec (.staticTimerExpiry codes) s = .next t ∧ t.time = max s.time τ ∧
      t.csm.window = (if s.csm.window.length < 8 then s.csm.window else s.csm.window.drop 1) ++ [codes] ∧
      t.csm.conversions = s.csm.conversions ∧
      (∀ j : Fin 4,
        let x := s.csm.corners.get j
        let y := t.csm.corners.get j
        let out := decide ((codes.get j).toNat < 8 ∨ 1015 < (codes.get j).toNat)
        channelFollows .static out (!out) x y ∧ y.iSum = x.iSum ∧ y.qSum = x.qSum ∧ y.clipped = x.clipped ∧
        y.outOfWindow = x.outOfWindow) ∧
      (let ok := t.csm.corners.toList.countP (fun c => c.channel = .ok);
       (t.csm.meanSag.isSome = true ↔ t.csm.window.length = 8 ∧ 3 ≤ ok) ∧
       ∀ m, t.csm.meanSag = some m → isRounded (t.csm.sagTotal s.restOffsets) (8 * ok) m) ∧
      t.csm.loadMass = t.csm.meanSag.map (fun m => min 30000 ((m * s.ksag).tdiv 100).toNat) ∧
      t.rtb = s.rtb ∧ t.ibe = s.ibe ∧ t.tmo = s.tmo ∧ t.cls = s.cls ∧ t.strikePin = s.strikePin ∧ t.lidPin = s.lidPin ∧
      (s.lkp.part ≠ .quiet →
        t.csm.staticTimer = some (t.time + 100000) ∧ t.csm.quietRef = s.csm.quietRef ∧
        t.rbt = s.rbt ∧ t.spm = s.spm ∧ t.ric = s.ric ∧ t.lkp = s.lkp) ∧
      (s.lkp.part = .quiet → ∀ m, t.csm.meanSag = some m → ∀ r, s.csm.quietRef = some r → 2000 < |m - r| →
        t.lkp.part = .waking ∧ t.lkp.notices.wake = true ∧ t.lkp.wakeTimer = some (t.time + 50000) ∧
        t.csm.quietRef = none ∧ t.csm.staticTimer = some (t.time + 100000)) ∧
      (s.lkp.part = .quiet → (∀ m, t.csm.meanSag = some m → ∀ r, s.csm.quietRef = some r → |m - r| ≤ 2000) →
        t.csm.staticTimer = some (t.time + 1000000) ∧
        t.csm.quietRef = (if s.csm.quietRef.isSome then s.csm.quietRef else t.csm.meanSag) ∧
        t.rbt = s.rbt ∧ t.spm = s.spm ∧ t.ric = s.ric ∧ t.lkp = s.lkp)

/-! ### Timers of the estimator and of the plan -/

/-- The give-up timer makes a WAITING latch READY with the estimate record as it stands and result GAVE_UP, and starts the 2.0 s
discard timer; the discard timer frees a READY latch. The cycle port is told by a notice, the drive port by none. -/
def Obligations.LatchTimersRunOut : Prop :=
  ∀ (k : DelayedKey) (p : Port) (e : EstimateRecord) (res : SnapshotResult) (τ : Nat) (s : State), s.inReset = false →
    (s.ibe.latch = .waiting k p τ →
      exec .giveUpTimerExpiry s = .next { s with
        time := max s.time τ
        ibe := { s.ibe with latch := .ready k p s.estimateRecord .gaveUp (max s.time τ + 2000000) }
        lkp := { s.lkp with
          notices := if p = .cycle then s.lkp.notices.add .lookupReady else s.lkp.notices } }) ∧
    (s.ibe.latch = .ready k p e res τ →
      exec .discardTimerExpiry s = .next { s with
        time := max s.time τ
        ibe := { s.ibe with latch := .free }
        lkp := { s.lkp with
          notices := if p = .cycle then s.lkp.notices.add .lookupDiscarded else s.lkp.notices } })

/-- A dwell tick adds 100 ms to the active plateau's elapsed dwell, at most 18000 of them, and starts the timer again; when the
elapsed dwell comes to equal a dwell other than 0, the plateau ends EXPIRED. -/
def Obligations.DwellTickCountsTheDwell : Prop :=
  ∀ (τ : Nat) (s : State), s.spm.dwellTimer = some τ → s.inReset = false → s.planConsistent = true →
    ∃ p, s.active = some p ∧ ∀ e, p.elapsed = some e →
      (¬(p.dwell ≠ 0 ∧ p.dwell = min 18000 (e + 1)) →
        exec .dwellTick s = .next { s with
          time := max s.time τ
          spm := { s.spm with
            plateaus := s.spm.plateaus.map
              (fun q => if q.slot = p.slot then { q with elapsed := some (min 18000 (e + 1)) } else q)
            dwellTimer := some (max s.time τ + 100000) } }) ∧
      (p.dwell ≠ 0 → p.dwell = min 18000 (e + 1) →
        ∃ t, exec .dwellTick s = .next t ∧ s.plateauEnds { p with elapsed := some p.dwell } (.done .expired) t ∧
          s.planFrame t ∧ t.time = max s.time τ)

/-! ### The ring -/

/-- At the open instant of the head's chamber, with the queue not frozen and the valve closed, a SERVING head, or a WAITING one
whose window starts after the service bound, is served: the valve opens, the head is SERVING, and close instant and credit are
fixed: EARLY by the flow in force, FULL with the D of the window set, never more than the order is owed (log 37). A head that
starts to be served restarts the settling. In every other case the window passes. -/
def Obligations.OpenInstantServesTheHead : Prop :=
  ∀ (j : Fin 4) (w : Window) (s : State), s.ric.windows.find? (fun v => v.chamber = j) = some w →
    let dropped := s.ric.windows.filter (fun v => v.chamber ≠ j)
    let later := sub24 w.starts s.ric.bound
    (s.ric.frozen = true ∨ s.ric.opening ≠ none ∨ s.ric.queue = [] ∨
      (∃ o rest, s.ric.queue = o :: rest ∧
        (o.chamber ≠ j ∨ (o.state = .waiting ∧ (later = 0 ∨ 8388608 ≤ later)))) →
      exec (.openInstant j) s =
        .next { s with time := s.time + s.ahead w.opens, ric := { s.ric with windows := dropped } }) ∧
    (∀ o rest, s.ric.frozen = false → s.ric.opening = none → s.ric.queue = o :: rest → o.chamber = j →
      let left := o.requested * 1000 - o.delivered
      let opening : Opening :=
        if left * 1000 / s.flow < w.length then ⟨j, w.opens, left * 1000 / s.flow, .early, left, s.flow⟩
        else ⟨j, w.opens, w.length, .full, min w.full left, s.flow⟩
      let ric := { s.ric with
        windows := dropped, queue := { o with state := .serving } :: rest, opening := some opening }
      (o.state = .serving →
        exec (.openInstant j) s = .next { s with time := s.time + s.ahead w.opens, ric := ric }) ∧
      (o.state = .waiting → 0 < later → later < 8388608 → s.freezeCondition = false →
        ∃ t, exec (.openInstant j) s = .next t ∧ t.time = s.time + s.ahead w.opens ∧ t.ric = ric ∧
          t.valveLine = true ∧ t.ibe.settle = 0 ∧ t.ibe.injectionMark = true ∧ t.ibe.uS = s.ibe.uS ∧
          s.sameSensing t ∧ t.lkp.part = s.lkp.part ∧
          (s.spm.plan ≠ .running → t.spm.plan = s.spm.plan)))

/-- At the close instant the valve closes and the opening's credit goes to the head: the whole grams it crosses go to the
chamber, and an order whose grams are all delivered leaves the queue, the next one becoming the head now. -/
def Obligations.CloseInstantCreditsTheHead : Prop :=
  ∀ (o : Opening) (h : Order) (rest : List Order) (s : State), s.inReset = false →
    s.ric.opening = some o → s.ric.queue = h :: rest →
    let now := s.time + s.ahead (o.opens + o.duration)
    let delivered := h.delivered + o.credit
    let contents := s.ric.contents.map
      (fun c => c.set h.chamber (c.get h.chamber + 1000 * (delivered / 1000 - h.delivered / 1000)))
    (delivered < h.requested * 1000 →
      exec .closeInstant s = .next { s with
        time := now
        ric := { s.ric with
          opening := none, contents := contents, queue := { h with delivered := delivered } :: rest } }) ∧
    (h.requested * 1000 ≤ delivered →
      exec .closeInstant s = .next { s with
        time := now
        ric := { s.ric with
          opening := none, contents := contents, queue := rest, flush := s.ric.flush && !rest.isEmpty,
          bound := if rest.isEmpty then s.ric.bound else now % 16777216 } })

/-- A bleed tick takes B × 100 mg from every chamber, down to 0, and leaves no residue below a gram; 30 s below Shold make
UNKNOWN chambers EMPTY. Neither changes anything else. -/
def Obligations.BleedAndUnknownTimers : Prop :=
  ∀ (τ : Nat) (s : State), s.inReset = false →
    (s.ric.bleedTimer = some τ →
      exec .bleedTick s = .next { s with
        time := max s.time τ
        ric := { s.ric with
          bleedTimer := some (max s.time τ + 100000)
          contents := s.ric.contents.map
            (fun c => c.map (fun mg => if mg < s.bleed * 100 + 1000 then 0 else mg - s.bleed * 100)) } }) ∧
    (s.ric.unknownTimer = some τ →
      exec .unknownTimerExpiry s = .next { s with
        time := max s.time τ, ric := { s.ric with contents := some ⟨0, 0, 0, 0⟩, unknownTimer := none } })

/-! ### Pins -/

/-- A pin that comes to differ from its state starts the 10 ms debounce, one that differs already leaves it running, one that
returns stops it; while a reset is in force only the pin's level changes. -/
def Obligations.PinsRunTheirDebounce : Prop :=
  ∀ (after : Nat) (level : Bool) (s : State),
    (s.inReset = false →
      exec (.strikePinChange after level) s = .next { s with
        time := s.time + after
        strikePin := level
        tmo := { s.tmo with
          strikeTimer :=
            if level = s.tmo.strike then none else some (s.tmo.strikeTimer.getD (s.time + after + 10000)) } } ∧
      exec (.lidlkPinChange after level) s = .next { s with
        time := s.time + after
        lidPin := level
        tmo := { s.tmo with
          lidTimer := if level = s.tmo.lid then none else some (s.tmo.lidTimer.getD (s.time + after + 10000)) } }) ∧
    (s.inReset = true →
      exec (.strikePinChange after level) s = .next { s with time := s.time + after, strikePin := level } ∧
      exec (.lidlkPinChange after level) s = .next { s with time := s.time + after, lidPin := level })

/-- The strike state takes the pin's level after the debounce. An assertion finds the cause STRIKE, trips the part with a grant
of 0, freezes the queue as R144 says (logs 15 and 27), and wakes a QUIET part; a negation changes nothing else. -/
def Obligations.StrikeSettles : Prop :=
  ∀ (τ : Nat) (s : State), s.tmo.strikeTimer = some τ → s.inReset = false →
    (s.strikePin = false →
      exec .strikeDebounceExpiry s = .next { s with
        time := max s.time τ, tmo := { s.tmo with strike := false, strikeTimer := none } }) ∧
    (s.strikePin = true → s.causesConsistent = true → s.grantSafe = true →
      ∃ t, exec .strikeDebounceExpiry s = .next t ∧ t.time = max s.time τ ∧
        t.tmo = { s.tmo with
          strike := true, strikeTimer := none, first := some (s.tmo.first.getD .strike),
          causes := s.tmo.causes.add .strike } ∧
        t.tripLine = true ∧ t.spm.grant.speed = 0 ∧
        (s.tmo.causes.has .strike = false → t.lkp.notices.trip = true) ∧
        (s.spm.plan.underway = true → s.tmo.first = none → t.spm.plan = .paused .trip) ∧
        (s.lkp.part = .quiet →
          t.lkp.part = .waking ∧ t.lkp.notices.wake = true ∧ t.lkp.wakeTimer = some (max s.time τ + 50000)) ∧
        (s.lkp.part = .run → t.lkp.part = .run) ∧
        (s.ringSafe = true → t.ric.frozen = true ∧ s.ringFollows t) ∧
        t.rtb = s.rtb ∧ t.cls = s.cls ∧ t.strikePin = s.strikePin ∧ t.lidPin = s.lidPin ∧
        t.csm.corners = s.csm.corners ∧ t.csm.window = s.csm.window)

/-- The lid state takes the pin's level after the debounce. An unlocked lid posts LID, pauses a RUNNING or REBALANCE plan, makes
the grant 0 and freezes the queue with the valve closed: the water so far is credited (logs 15 and 27), and a SERVING head is put
back to WAITING and takes in an equal order behind it. A locked one starts nothing by itself. -/
def Obligations.LidSettles : Prop :=
  ∀ (τ : Nat) (s : State), s.tmo.lidTimer = some τ → s.inReset = false →
    (s.lidPin = false → s.ringSafe = true →
      ∃ t, exec .lidDebounceExpiry s = .next t ∧ t.time = max s.time τ ∧
        t.tmo = { s.tmo with lid := false, lidTimer := none } ∧ t.lkp.notices.lid = true ∧ t.spm.grant.speed = 0 ∧
        t.spm.plan =
          (if s.spm.plan = .running ∨ s.spm.plan = .paused .rebalance then .paused .lid else s.spm.plan) ∧
        t.ric.frozen = true ∧ t.valveLine = false ∧ s.ringFollows t ∧
        t.rtb = s.rtb ∧ t.csm = s.csm ∧ t.ibe = s.ibe ∧ t.cls = s.cls ∧ t.lkp.part = s.lkp.part ∧
        t.strikePin = s.strikePin ∧ t.lidPin = s.lidPin) ∧
    (s.lidPin = true →
      ∃ t, exec .lidDebounceExpiry s = .next t ∧ t.time = max s.time τ ∧
        t.tmo = { s.tmo with lid := true, lidTimer := none } ∧
        (s.spm.plan ≠ .running → t.spm.plan = s.spm.plan) ∧ t.ric.frozen = t.freezeCondition ∧
        (s.ringSafe = true → s.ringFollows t) ∧ t.rtb = s.rtb ∧ t.csm = s.csm ∧ t.ibe = s.ibe ∧ t.cls = s.cls ∧
        t.lkp.part = s.lkp.part ∧ t.strikePin = s.strikePin ∧ t.lidPin = s.lidPin)

/-! ### Characters, gaps and answers -/

/-- A character joins its frame where it begins no more than 5 ms after the one before (in twelfths of a µs with its own
length, log 22), else it starts one. A missing stop bit drops the frame, a count above 16 drops it at its header with what
follows ignored until a gap, and a whole frame whose check does not match is dropped. -/
def Obligations.CharactersMakeFrames : Prop :=
  ∀ (after : Nat) (p : Port) (b : Byte) (s : State),
    let r := (s.portOf p).rx
    let now := s.time + after
    let bytes := if (now - r.lastEnd) * 12 ≤ 63125 then r.bytes ++ [b] else [b]
    let count := (bytes.getD 3 0#8).toNat
    (r.skipping = true → (now - r.lastEnd) * 12 ≤ 63125 → ∀ stop,
      exec (.characterReceived after p b stop) s = .next ((s.elapse after).setRx p { r with lastEnd := now })) ∧
    (r.skipping = false ∨ 63125 < (now - r.lastEnd) * 12 →
      exec (.characterReceived after p b false) s = .next ((s.elapse after).setRx p ⟨[], now, false⟩) ∧
      (bytes.length = 4 → 16 < count →
        exec (.characterReceived after p b true) s = .next ((s.elapse after).setRx p ⟨[], now, true⟩)) ∧
      ((bytes.length = 4 → count ≤ 16) → bytes.length ≠ 8 + 2 * count →
        exec (.characterReceived after p b true) s = .next ((s.elapse after).setRx p ⟨bytes, now, false⟩)) ∧
      (bytes.length = 8 + 2 * count → checkMatches bytes = false →
        exec (.characterReceived after p b true) s = .next ((s.elapse after).setRx p ⟨[], now, false⟩)))

/-- The last character of a frame is the request row of that frame: whatever request a row of the table stands for, a port that
has received all bytes of its frame but the last, in time, takes that last one exactly as the row. That a request row is the receipt
of the whole frame is log 9, and the 63125 twelfths of a µs between the ends of two characters of a frame are log 22. -/
def Obligations.LastCharacterIsTheRequest : Prop :=
  ∀ (i : Instr) (after : Nat) (f : Frame) (bytes : List Byte) (b : Byte) (s : State),
    requestFrame i = some (after, f) → i.wellFormed = true → frameBytes f = bytes ++ [b] →
    (s.portOf f.port).rx.bytes = bytes → (s.portOf f.port).rx.skipping = false →
    (s.time + after - (s.portOf f.port).rx.lastEnd) * 12 ≤ 63125 →
    exec (.characterReceived after f.port b true) s = exec i s

/-- More than 5 ms without a character drop a partial frame and end the ignoring of a dropped one, at the instant of log 22, 5001 µs
after the last character's end. On an empty receive frame the command changes nothing (log 3). -/
def Obligations.GapDropsAPartialFrame : Prop :=
  ∀ (p : Port) (s : State),
    ((s.portOf p).rx.bytes = [] → (s.portOf p).rx.skipping = false → exec (.frameGapTimeout p) s = .next s) ∧
    ((s.portOf p).rx.bytes ≠ [] ∨ (s.portOf p).rx.skipping = true →
      exec (.frameGapTimeout p) s =
        .next (State.setRx p ⟨[], (s.portOf p).rx.lastEnd, false⟩
          { s with time := max s.time ((s.portOf p).rx.lastEnd + 5001) }))

/-- The last byte of an answer frees the port, or puts a waiting frame in progress with BUSY; after the answer to RESET the
command reset begins: that every block then stands at its values, and that the pins and another reset stay, is log 10. An answer
that waits for programming is not sent: with the answer held back, and with nothing in progress, ANSWER_SENT only lets its time
pass (log 3). -/
def Obligations.AnswerSentFreesThePort : Prop :=
  ∀ (after : Nat) (p : Port) (q : InProgress) (a : Answer) (s : State),
    ((s.portOf p).inProgress = none → exec (.answerSent after p) s = .next (s.elapse after)) ∧
    ((s.portOf p).inProgress = some { q with answer := none } → exec (.answerSent after p) s = .next (s.elapse after)) ∧
    ((s.portOf p).inProgress = some { q with answer := some a, resetAfter := false } →
      exec (.answerSent after p) s = .next ((s.elapse after).setPort p
        { s.portOf p with
          inProgress := (s.portOf p).waiting.map (fun c => ⟨c, some ⟨.busy, []⟩, false⟩), waiting := none })) ∧
    ((s.portOf p).inProgress = some { q with answer := some a, resetAfter := true } →
      ∃ t, exec (.answerSent after p) s = .next t ∧ t.heldByReset ∧
        t.rst = ⟨some (s.time + after + 1000), s.rst.resetN⟩ ∧ t.cls.lockout = s.cls.lockout ∧ t.tripLine = true ∧
        t.valveLine = false ∧ t.strikePin = s.strikePin ∧ t.lidPin = s.lidPin ∧
        (s.cls.programming = none → t.cls.items = s.cls.items))

/-! ### The quiet states -/

/-- The quiet countdown makes the part QUIET: the mean sag is kept as the quiet reference and sampling goes on at 1 s, the
delayed-lookup latch is freed, the grant is 0 and the queue frozen as R144 says (logs 15 and 27). The wake timer returns a WAKING
part to RUN with WAKE, and leaves CSM, which returned to the fast rate when the part left QUIET (log 35). -/
def Obligations.QuietAndWakeTimers : Prop :=
  ∀ (τ : Nat) (s : State), s.inReset = false →
    (s.lkp.quietTimer = some τ →
      ∃ t, exec .quietCountdownExpiry s = .next t ∧ t.time = max s.time τ ∧ t.lkp.part = .quiet ∧
        t.lkp.quietTimer = none ∧ t.lkp.wakeTimer = s.lkp.wakeTimer ∧
        t.csm = { s.csm with
          quietRef := s.csm.meanSag, staticTimer := s.csm.staticTimer.map (fun _ => max s.time τ + 1000000) } ∧
        t.ibe = { s.ibe with latch := .free } ∧ t.spm.grant.speed = 0 ∧ t.ric.frozen = true ∧
        (s.ringSafe = true → s.ringFollows t) ∧
        t.rtb = s.rtb ∧ t.tmo = s.tmo ∧ t.cls = s.cls ∧ t.strikePin = s.strikePin ∧ t.lidPin = s.lidPin) ∧
    (s.lkp.wakeTimer = some τ → s.lkp.part = .waking →
      ∃ t, exec .wakeTimerExpiry s = .next t ∧ t.time = max s.time τ ∧ t.lkp.part = .run ∧ t.lkp.wakeTimer = none ∧
        t.lkp.notices.wake = true ∧ t.lkp.quietTimer = s.lkp.quietTimer ∧ t.csm = s.csm ∧ t.ibe = s.ibe ∧
        (s.ringSafe = true → s.ringFollows t) ∧ t.rtb = s.rtb ∧ t.tmo = s.tmo ∧ t.cls = s.cls ∧
        t.strikePin = s.strikePin ∧ t.lidPin = s.lidPin)

/-! ### What a port makes of a frame -/

/-- The cases of R166, R167 and Table 9-6 for a whole frame of any kind and class, received as its request row or by its last
character (log 9), addressed or broadcast: on a busy port it waits or is dropped, but wakes a QUIET part (log 11); else no answer,
BUSY or ACCESS with nothing changed, a wake, or the owner's answer, with QUIET_PENDING cancelled by every frame but a cycle-port
LOOKUP of STATUS (log 21). That a frame is answered while a reset is in force is log 10. -/
def Obligations.FramesMeetTheirCases : Prop :=
  ∀ (i : Instr) (after : Nat) (f : Frame) (s : State), receives i after f s →
    let found := s.taking after f.port
    let port := s.portOf f.port
    let wakes (t : State) : Prop := t.lkp.part = .waking ∧ t.lkp.wakeTimer = some (s.time + after + 50000) ∧
      t.csm.quietRef = none ∧ (s.rbt.span = none → t.lkp.notices = s.lkp.notices) ∧
      (s.ringSafe = true → s.ringFollows t)
    let status := f.port = .cycle ∧ f.isLookup 9#8 = true
    let refused := f.formOk = false ∨ (f.port = .drive ∧ f.driveRights = false)
    (found.cancelQuiet.lkp.part = .run ∧ found.cancelQuiet.lkp.quietTimer = none ∧
      found.cancelQuiet.lkp.cycle = found.lkp.cycle ∧ found.cancelQuiet.lkp.drive = found.lkp.drive ∧
      found.cancelQuiet.ibe = s.ibe ∧ s.sameSensing { found.cancelQuiet with csm := s.csm } ∧
      (s.lkp.part ≠ .quiet → s.lkp.part ≠ .starting → found.cancelQuiet.csm = s.csm) ∧
      (s.spm.plan ≠ .running → found.cancelQuiet.spm.plan = s.spm.plan) ∧
      (s.ringSafe = true → s.ringFollows found.cancelQuiet)) ∧
    (f.port = .cycle → (s.nodeAddress ≠ some f.addr.toNat ∧ f.addr ≠ 15#8) → exec i s = .next found) ∧
    (f.port = .drive ∨ s.nodeAddress = some f.addr.toNat →
      (port.inProgress ≠ none → s.lkp.part ≠ .quiet ∨ f.driveGrant = true →
        (port.waiting ≠ none → exec i s = .next found) ∧
        (port.waiting = none →
          exec i s = .next (found.setPort f.port { found.portOf f.port with waiting := some f.caller }))) ∧
      (port.inProgress ≠ none → s.lkp.part = .quiet → f.driveGrant = false →
        ∃ t, exec i s = .next t ∧ wakes t ∧
          t.portOf f.port = { found.portOf f.port with waiting := some (port.waiting.getD f.caller) }) ∧
      (port.inProgress = none →
        (s.lkp.part = .starting → exec i s = .next (found.replying f.port f.caller ⟨.busy, []⟩)) ∧
        (s.lkp.part = .waking → f.driveGrant = false →
          exec i s = .next (found.replying f.port f.caller ⟨.busy, []⟩)) ∧
        (s.lkp.part = .quiet → f.driveGrant = false →
          ∃ t, exec i s = .next t ∧ t.reply f.port = some ⟨.busy, []⟩ ∧ wakes t) ∧
        (s.lkp.part = .run → f.formOk = false → exec i s = .next (found.replying f.port f.caller ⟨.access, []⟩)) ∧
        (s.lkp.part = .run → f.port = .drive → f.driveRights = false →
          exec i s = .next (found.replying f.port f.caller ⟨.access, []⟩)) ∧
        (s.lkp.part = .run → f.formOk = true → (f.port = .drive → f.driveRights = true) →
          exec i s = .next (State.finish f (ownerOf f f found))) ∧
        (s.lkp.part = .quietPending → f.driveGrant = false → ¬ status →
          (refused → exec i s = .next (found.cancelQuiet.replying f.port f.caller ⟨.access, []⟩)) ∧
          (¬ refused → exec i s = .next (State.finish f (ownerOf f f found.cancelQuiet)))) ∧
        (s.lkp.part = .quietPending → status →
          (f.formOk = false → exec i s = .next (found.replying f.port f.caller ⟨.access, []⟩)) ∧
          (f.formOk = true → exec i s = .next (State.finish f (ownerOf f f found)))))) ∧
    (f.port = .cycle → f.addr = 15#8 → s.nodeAddress ≠ some 15 →
      let quiet := f.formOk = true ∧ f.kind = 6#8 ∧ f.cls = 9#8 ∧ f.key = 11#16
      (port.inProgress ≠ none → s.lkp.part ≠ .quiet → exec i s = .next found) ∧
      (s.lkp.part = .quiet →
        ∃ t, exec i s = .next t ∧ wakes t ∧ t.portOf .cycle = found.portOf .cycle) ∧
      (port.inProgress = none → s.lkp.part = .starting ∨ s.lkp.part = .waking → exec i s = .next found) ∧
      (port.inProgress = none → s.lkp.part = .run → ¬ quiet → exec i s = .next found) ∧
      (port.inProgress = none → s.lkp.part = .quietPending → ¬ quiet →
        (status → exec i s = .next found) ∧ (¬ status → exec i s = .next found.cancelQuiet)) ∧
      (port.inProgress = none → quiet →
        (s.lkp.part = .run → exec i s = .next (ownQuiet f found).state) ∧
        (s.lkp.part = .quietPending → exec i s = .next (ownQuiet f found.cancelQuiet).state)))

/-! ### Lookups -/

/-- LOOKUP of PLAN, LOAD, ESTIMATE with key 0 and CAL with key 0 is answered DONE with the record as it stands, and changes
nothing. ESTIMATE is open to the drive port too; with a key above 2 it is answered RANGE. -/
def Obligations.RecordLookupsAnswerTheRecord : Prop :=
  ∀ (after : Nat) (r : Request) (s : State),
    (s.takes 0 r →
      exec (.lookupPlan after r) s = s.justAnswers after ⟨r.addr, 1#8, 1#8⟩ .done
        ([word s.spm.plan.code, optionWord (s.spm.plan.pauseReason.map PauseReason.code), word s.spm.plateaus.length,
          optionWord (s.active.map Plateau.slot)] ++ padWords 8 (s.spm.plateaus.map (fun p => word p.slot))) ∧
      exec (.lookupLoad after r) s = s.justAnswers after ⟨r.addr, 1#8, 8#8⟩ .done
        ([flagWord s.ibe.declared.isSome, optionWord (s.ibe.declared.map Fin.val),
          optionWord (s.ibe.latched.map Fin.val), flagWord s.ibe.sagAbsent, word s.tableClass.val] ++
          sagWords s.csm.meanSag ++ [optionWord s.csm.loadMass]) ∧
      (r.key = 0#16 →
        exec (.lookupCal after r) s = s.justAnswers after ⟨r.addr, 1#8, 10#8⟩ .done
          [flagWord s.cls.defaulted, flagWord s.cls.unlocked, flagWord s.cls.lockout,
            word (s.cls.items.countP (fun i => i.source = .fault))])) ∧
    (r.params = [] → s.ready r.port r.addr →
      (r.key = 0#16 →
        exec (.lookupEstimate after r) s = .next ((s.taking after r.port).replying r.port ⟨r.addr, 1#8, 4#8⟩
          ⟨.done, s.estimateRecord.words none⟩)) ∧
      (2 < r.key.toNat →
        exec (.lookupEstimate after r) s = .next ((s.taking after r.port).replying r.port ⟨r.addr, 1#8, 4#8⟩
          ⟨.range, []⟩)))

/-- A lookup by slot, id, chamber, position or item is answered RANGE for a key outside its range, ABSENT for a key that names
nothing, and DONE with the record the key names; it changes nothing.
Grams or mg of an order that are too large for their field read as a free value (log 39). -/
def Obligations.KeyedLookupsFindTheRecord : Prop :=
  ∀ (after : Nat) (r : Request) (s : State), s.takes 0 r →
    (7 < r.key.toNat → exec (.lookupPlateau after r) s = s.justAnswers after ⟨r.addr, 1#8, 2#8⟩ .range []) ∧
    (r.key.toNat ≤ 7 → (∀ p ∈ s.spm.plateaus, p.slot ≠ r.key.toNat) →
      exec (.lookupPlateau after r) s = s.justAnswers after ⟨r.addr, 1#8, 2#8⟩ .absent []) ∧
    (∀ (i : Nat) (p : Plateau), s.planConsistent = true → s.spm.plateaus[i]? = some p → p.slot = r.key.toNat →
      exec (.lookupPlateau after r) s = s.justAnswers after ⟨r.addr, 1#8, 2#8⟩ .done
        (p.words (i + 1) s.spm.grant.speed)) ∧
    (5 < r.key.toNat → exec (.lookupBand after r) s = s.justAnswers after ⟨r.addr, 1#8, 5#8⟩ .range []) ∧
    (r.key.toNat ≤ 5 → (∀ b ∈ s.rbt.bands, b.id ≠ r.key.toNat) →
      exec (.lookupBand after r) s = s.justAnswers after ⟨r.addr, 1#8, 5#8⟩ .absent []) ∧
    (∀ b ∈ s.rbt.bands, s.bandsSafe = true → b.id = r.key.toNat →
      exec (.lookupBand after r) s = s.justAnswers after ⟨r.addr, 1#8, 5#8⟩ .done
        [word b.id, word b.lower, word b.upper, word b.peak, word b.origin.code, word b.hits,
          bitsWord [b.pinned, b.adjusted]]) ∧
    (3 < r.key.toNat → exec (.lookupChamber after r) s = s.justAnswers after ⟨r.addr, 1#8, 6#8⟩ .range []) ∧
    (∀ j : Fin 4, r.key.toNat = j.val →
      exec (.lookupChamber after r) s = s.justAnswers after ⟨r.addr, 1#8, 6#8⟩ .done (s.chamberWords j)) ∧
    (r.key = 0#16 → exec (.lookupQueue after r) s = s.justAnswers after ⟨r.addr, 1#8, 7#8⟩ .done s.queueWords) ∧
    (8 < r.key.toNat → exec (.lookupQueue after r) s = s.justAnswers after ⟨r.addr, 1#8, 7#8⟩ .range []) ∧
    (∀ n : Nat, n ≤ 7 → r.key.toNat = n + 1 → s.ric.queue[n]? = none →
      exec (.lookupQueue after r) s = s.justAnswers after ⟨r.addr, 1#8, 7#8⟩ .absent []) ∧
    (∀ (n : Nat) (o : Order), n ≤ 7 → r.key.toNat = n + 1 → s.ric.queue[n]? = some o →
      exec (.lookupQueue after r) s = s.justAnswers after ⟨r.addr, 1#8, 7#8⟩ .done (o.words (n + 1))) ∧
    (r.key ≠ 0#16 → specOf r.key.toNat = none →
      exec (.lookupCal after r) s = s.justAnswers after ⟨r.addr, 1#8, 10#8⟩ .absent []) ∧
    (∀ spec i, r.key ≠ 0#16 → specOf r.key.toNat = some spec → s.cls.item r.key.toNat = some i →
      exec (.lookupCal after r) s = s.justAnswers after ⟨r.addr, 1#8, 10#8⟩ .done
        ([word r.key.toNat, flagWord (!spec.fixed), word i.source.code] ++
          if r.key = 6#16 then List.replicate 16 0xFFFF#16 else padWords 16 (s.cls.inForce r.key.toNat)))

/-- LOOKUP GRANT is answered with the grant record, on the drive port in every part state but STARTING; the drive's own
lookup clears drive attention, and nothing else changes. -/
def Obligations.GrantLookupShowsTheGrant : Prop :=
  ∀ (after : Nat) (r : Request) (s : State), r.params = [] → s.imageCurrent = true →
    let g := s.spm.grant
    let words := [word g.speed, word g.ramp.code, word g.ceiling.value, word g.ceiling.term.code,
      optionWord g.ceiling.limiting, optionWord g.slot, word g.reason.code]
    (r.port = .cycle → s.ready .cycle r.addr →
      exec (.lookupGrant after r) s = s.justAnswers after ⟨r.addr, 1#8, 3#8⟩ .done words) ∧
    (r.port = .drive → s.lkp.part ≠ .starting → s.lkp.drive.inProgress = none →
      exec (.lookupGrant after r) s = .next
        (State.replying .drive ⟨r.addr, 1#8, 3#8⟩ ⟨.done, words⟩
          { s.taking after .drive with lkp := { (s.taking after .drive).lkp with driveAtn := false } }))

/-- LOOKUP STATUS shows the part, and the notices on the cycle port alone, where it empties them; it changes nothing else. -/
def Obligations.StatusLookupTakesTheNotices : Prop :=
  ∀ (after : Nat) (r : Request) (s : State), r.params = [] → s.ready r.port r.addr →
    let words (n : NoticeSet) := [word s.lkp.part.code, word s.rtb.speedState.code, flagWord s.rtb.atRest,
      word s.rtb.measured, optionWord (s.rtb.lastCompletion.map Verdict.code),
      bitsWord (s.csm.corners.toList.map (fun c => c.channel = .fault)), flagWord s.tmo.first.isSome,
      optionWord (s.tmo.first.map Cause.code),
      bitsWord [s.tmo.causes.orbit, s.tmo.causes.strike, s.tmo.causes.tachLost, s.tmo.causes.sensors,
        s.tmo.causes.overspeed],
      bitsWord [s.tmo.strike, s.tmo.lid], word s.spm.guard.code, bitsWord [s.cls.defaulted, s.cls.unlocked],
      bitsWord [n.planState, n.plateauEnd, n.rebalance, n.trip, n.lid, n.ringExhausted, n.bandLearned, n.bandOverflow,
        n.lookupReady, n.lookupDiscarded, n.calFault, n.wake, n.restart]]
    (r.port = .cycle →
      exec (.lookupStatus after r) s = .next
        (State.replying .cycle ⟨r.addr, 1#8, 9#8⟩ ⟨.done, words s.lkp.notices⟩
          { s.taking after .cycle with lkp := { (s.taking after .cycle).lkp with notices := NoticeSet.empty } })) ∧
    (r.port = .drive →
      exec (.lookupStatus after r) s = .next
        ((s.taking after .drive).replying .drive ⟨r.addr, 1#8, 9#8⟩ ⟨.done, words NoticeSet.empty⟩))

/-- Table 3-5: a delayed lookup collects its own READY result, is told PENDING while its own waits, else is answered DONE at once
where its condition holds, takes a free latch for 30 s where it does not, and is BUSY at a latch another holds. -/
def Obligations.DelayedLookupMeetsTheLatch : Prop :=
  ∀ (after : Nat) (r : Request) (s : State), r.params = [] → s.ready r.port r.addr →
    r.key = 1#16 ∨ r.key = 2#16 →
    let k : DelayedKey := if r.key = 2#16 then .ringSettled else .settled
    let holds := if r.key = 2#16 then s.ringSettled else s.settled
    let c : Caller := ⟨r.addr, 1#8, 4#8⟩
    let found := s.taking after r.port
    (∀ e res τ, s.ibe.latch = .ready k r.port e res τ →
      exec (.lookupEstimateDelayed after r) s = .next
        (State.replying r.port c ⟨.done, e.words (some res)⟩ { found with ibe := { s.ibe with latch := .free } })) ∧
    (∀ τ, s.ibe.latch = .waiting k r.port τ →
      exec (.lookupEstimateDelayed after r) s = .next (found.replying r.port c ⟨.pending, []⟩)) ∧
    (s.ibe.latch.heldBy k r.port = false → holds = true →
      exec (.lookupEstimateDelayed after r) s = .next
        (found.replying r.port c ⟨.done, s.estimateRecord.words (some .met)⟩)) ∧
    (s.ibe.latch = .free → holds = false →
      exec (.lookupEstimateDelayed after r) s = .next
        (State.replying r.port c ⟨.pending, []⟩
          { found with ibe := { s.ibe with latch := .waiting k r.port (s.time + after + 30000000) } })) ∧
    (s.ibe.latch ≠ .free → s.ibe.latch.heldBy k r.port = false → holds = false →
      exec (.lookupEstimateDelayed after r) s = .next (found.replying r.port c ⟨.busy, []⟩))

/-! ### Building the plan -/

/-- APPEND puts a QUEUED record at the end of the list, in the lowest FREE slot, its target lowered to Smax and its dwell to
18000, and answers with the slot; an EMPTY plan is LOADED with it, and in every other plan, RUNNING or not, nothing else changes. A
plan that is over, values out of range and a full list are refused with nothing changed. -/
def Obligations.AppendAddsARecord : Prop :=
  ∀ (after : Nat) (target dwell floor auto : Word) (r : Request) (s : State), s.takes 4 r →
    r.params = [target, dwell, floor, auto] → s.planConsistent = true →
    let c : Caller := ⟨r.addr, 2#8, 2#8⟩
    let fits := target.toNat ≤ 1200 ∧ (floor = 0xFFFF#16 ∨ (floor.toNat ≤ 1200 ∧ floor.toNat ≤ target.toNat)) ∧
      auto.toNat ≤ 1
    let finished := s.spm.plan = .complete ∨ s.spm.plan = .aborted
    (finished → exec (.append after r) s = s.justAnswers after c .access []) ∧
    (¬ finished → ¬ fits → exec (.append after r) s = s.justAnswers after c .range []) ∧
    (¬ finished → fits → s.spm.plateaus.length = 8 → exec (.append after r) s = s.justAnswers after c .full []) ∧
    (¬ finished → fits → s.spm.plateaus.length < 8 →
      ∃ slot < 8, (∀ p ∈ s.spm.plateaus, p.slot ≠ slot) ∧ (∀ n < slot, ∃ p ∈ s.spm.plateaus, p.slot = n) ∧
        let fresh : Plateau :=
          { slot := slot, requested := target.toNat, target := min target.toNat s.smax, dwell := min dwell.toNat 18000,
            floor := if floor = 0xFFFF#16 then none else some floor.toNat, autoBalance := decide (auto.toNat = 1),
            state := .queued, elapsed := none, clamped := decide (s.smax < target.toNat), derated := false,
            bandAdjusted := false }
        let answer : Answer := ⟨if s.smax < target.toNat ∨ 18000 < dwell.toNat then .adjusted else .done, [word slot]⟩
        (s.spm.plan ≠ .empty →
          exec (.append after r) s = .next (State.replying .cycle c answer
            { s.taking after .cycle with spm := { s.spm with plateaus := s.spm.plateaus ++ [fresh] } })) ∧
        (s.spm.plan = .empty →
          ∃ t, exec (.append after r) s = .next t ∧ t.reply .cycle = some answer ∧
            t.spm.plateaus = s.spm.plateaus ++ [fresh] ∧ t.spm.plan = .loaded ∧ t.lkp.notices.planState = true ∧
            s.planFrame t))

/-- AMEND of a plateau: a QUEUED record takes the new values; the ACTIVE one takes them with its elapsed dwell kept, RAMPING again
for a new target, or ending EXPIRED if the new dwell has run; a record that is over, the auto-balance of an ACTIVE one and values
out of range are refused, a different auto-balance of an ACTIVE one before the ranges are tested (log 18). -/
def Obligations.AmendPlateauChangesARecord : Prop :=
  ∀ (after : Nat) (target dwell floor auto : Word) (r : Request) (s : State), s.takes 4 r →
    r.params = [target, dwell, floor, auto] → s.planConsistent = true →
    let c : Caller := ⟨r.addr, 3#8, 2#8⟩
    let fits := target.toNat ≤ 1200 ∧ (floor = 0xFFFF#16 ∨ (floor.toNat ≤ 1200 ∧ floor.toNat ≤ target.toNat)) ∧
      auto.toNat ≤ 1
    let outcome : Outcome := if s.smax < target.toNat ∨ 18000 < dwell.toNat then .adjusted else .done
    let newFloor := if floor = 0xFFFF#16 then none else some floor.toNat
    (7 < r.key.toNat → exec (.amendPlateau after r) s = s.justAnswers after c .range []) ∧
    (r.key.toNat ≤ 7 → (∀ p ∈ s.spm.plateaus, p.slot ≠ r.key.toNat) →
      exec (.amendPlateau after r) s = s.justAnswers after c .absent []) ∧
    (∀ p ∈ s.spm.plateaus, p.slot = r.key.toNat →
      let given : Plateau :=
        { p with
          requested := target.toNat, target := min target.toNat s.smax, clamped := decide (s.smax < target.toNat),
          dwell := min dwell.toNat 18000, floor := newFloor }
      (p.isOver = true → exec (.amendPlateau after r) s = s.justAnswers after c .access []) ∧
      (p.state = .queued → ¬ fits → exec (.amendPlateau after r) s = s.justAnswers after c .range []) ∧
      (p.state = .queued → fits →
        exec (.amendPlateau after r) s = .next
          (State.replying .cycle c ⟨outcome, []⟩
            { s.taking after .cycle with
              spm := { s.spm with
                plateaus := s.spm.plateaus.map (fun q =>
                  if q.slot = p.slot then { given with autoBalance := decide (auto.toNat = 1) } else q) } })) ∧
      (p.isActive = true → auto.toNat ≠ (if p.autoBalance then 1 else 0) →
        exec (.amendPlateau after r) s = s.justAnswers after c .access []) ∧
      (p.isActive = true → auto.toNat = (if p.autoBalance then 1 else 0) → ¬ fits →
        exec (.amendPlateau after r) s = s.justAnswers after c .range []) ∧
      (p.isActive = true → auto.toNat = (if p.autoBalance then 1 else 0) → fits →
        ∃ t, exec (.amendPlateau after r) s = .next t ∧ t.reply .cycle = some ⟨outcome, []⟩ ∧ s.planFrame t ∧
          ((∃ e, p.elapsed = some e ∧ min dwell.toNat 18000 ≠ 0 ∧ min dwell.toNat 18000 ≤ e) →
            s.plateauEnds given (.done .expired) t) ∧
          (¬(∃ e, p.elapsed = some e ∧ min dwell.toNat 18000 ≠ 0 ∧ min dwell.toNat 18000 ≤ e) →
            ∃ q, t.active = some q ∧
              q = { given with state := q.state, derated := q.derated, bandAdjusted := q.bandAdjusted } ∧
              t.spm.plateaus = s.spm.plateaus.map (fun k => if k.slot = p.slot then q else k) ∧
              (s.spm.plan ≠ .running →
                t.spm.plan = s.spm.plan ∧ q.derated = p.derated ∧ q.bandAdjusted = p.bandAdjusted) ∧
              (s.spm.plan = .running →
                (t.spm.plan = .paused .rebalance ∧ q.state = .active .held) ∨
                (t.spm.plan = .running ∧
                  (q.state = (if p.target = given.target then p.state else .active .ramping) ∨
                    (q.state = .active .dwelling ∧ t.spm.grant.speed = 0 ∧ s.rtb.atRest = true)))))))

/-- WITHDRAW removes a QUEUED record, and with the last one of a LOADED plan the plan is EMPTY; it ends the ACTIVE plateau as
SKIPPED. RETIRE removes a record that is over. Every other record is refused ACCESS with nothing changed. -/
def Obligations.WithdrawAndRetireRecords : Prop :=
  ∀ (after : Nat) (r : Request) (s : State), s.takes 0 r → s.planConsistent = true →
    let c : Caller := ⟨r.addr, 4#8, 2#8⟩
    let d : Caller := ⟨r.addr, 5#8, 2#8⟩
    let others := s.spm.plateaus.filter (fun q => q.slot ≠ r.key.toNat)
    (7 < r.key.toNat →
      exec (.withdraw after r) s = s.justAnswers after c .range [] ∧
      exec (.retirePlateau after r) s = s.justAnswers after d .range []) ∧
    (r.key.toNat ≤ 7 → (∀ p ∈ s.spm.plateaus, p.slot ≠ r.key.toNat) →
      exec (.withdraw after r) s = s.justAnswers after c .absent [] ∧
      exec (.retirePlateau after r) s = s.justAnswers after d .absent []) ∧
    (∀ p ∈ s.spm.plateaus, p.slot = r.key.toNat →
      (p.state = .queued → ¬(s.spm.plan = .loaded ∧ others = []) →
        exec (.withdraw after r) s = .next
          (State.replying .cycle c ⟨.done, []⟩
            { s.taking after .cycle with spm := { s.spm with plateaus := others } })) ∧
      (p.state = .queued → s.spm.plan = .loaded → others = [] →
        ∃ t, exec (.withdraw after r) s = .next t ∧ t.reply .cycle = some ⟨.done, []⟩ ∧ t.spm.plan = .empty ∧
          t.spm.plateaus = [] ∧ t.lkp.notices.planState = true ∧ s.planFrame t) ∧
      (p.isActive = true →
        ∃ t, exec (.withdraw after r) s = .next t ∧ t.reply .cycle = some ⟨.done, []⟩ ∧
          s.plateauEnds p (.skipped .withdrawn) t ∧ s.planFrame t) ∧
      (p.isOver = true → exec (.withdraw after r) s = s.justAnswers after c .access []) ∧
      (p.isOver = true →
        exec (.retirePlateau after r) s = .next
          (State.replying .cycle d ⟨.done, []⟩
            { s.taking after .cycle with spm := { s.spm with plateaus := others } })) ∧
      (p.isOver = false → exec (.retirePlateau after r) s = s.justAnswers after d .access []))

/-! ### Running the plan -/

/-- NEXT ends the ACTIVE plateau of a RUNNING plan as DONE; of any other record or plan it is refused ACCESS. -/
def Obligations.NextEndsThePlateau : Prop :=
  ∀ (after : Nat) (slot : Word) (r : CommandRequest) (s : State), s.takesCommand 1 r → r.params = [slot] →
    s.planConsistent = true →
    let c : Caller := ⟨r.addr, 6#8, 1#8⟩
    (7 < slot.toNat → exec (.next after r) s = s.justAnswers after c .range []) ∧
    (slot.toNat ≤ 7 → (∀ p ∈ s.spm.plateaus, p.slot ≠ slot.toNat) →
      exec (.next after r) s = s.justAnswers after c .absent []) ∧
    (∀ p ∈ s.spm.plateaus, p.slot = slot.toNat →
      (s.spm.plan = .running → p.isActive = true →
        ∃ t, exec (.next after r) s = .next t ∧ t.reply .cycle = some ⟨.done, []⟩ ∧
          s.plateauEnds p (.done .next) t ∧ s.planFrame t) ∧
      (s.spm.plan ≠ .running ∨ p.isActive = false →
        exec (.next after r) s = s.justAnswers after c .access []))

/-- START runs a LOADED plan with the lid locked, the latch clear and restart hold off: the class is latched by the load mass,
the estimate's smoothing restarts, and the first record is ACTIVE. It is refused in the order of R102. -/
def Obligations.StartRunsThePlan : Prop :=
  ∀ (after : Nat) (r : CommandRequest) (s : State), s.takesCommand 0 r → s.planConsistent = true →
    let c : Caller := ⟨r.addr, 6#8, 1#8⟩
    let thresholds := s.cls.inForce 27
    (s.spm.plan ≠ .loaded ∨ s.tmo.lid = false ∨ s.tmo.first ≠ none →
      exec (.start after r) s = s.justAnswers after c .access []) ∧
    (s.spm.plan = .loaded → s.tmo.lid = true → s.tmo.first = none → s.spm.restartHold = true →
      exec (.start after r) s = s.justAnswers after c .busy []) ∧
    (s.spm.plan = .loaded → s.tmo.lid = true → s.tmo.first = none → s.spm.restartHold = false →
      ∃ t p, exec (.start after r) s = .next t ∧ t.reply .cycle = some ⟨.done, []⟩ ∧
        (t.spm.plan = .running ∨ t.spm.plan = .paused .rebalance) ∧ t.lkp.notices.planState = true ∧
        s.spm.plateaus.head? = some p ∧
        (∃ q, t.active = some q ∧
          q = { p with state := q.state, elapsed := some 0, derated := q.derated, bandAdjusted := q.bandAdjusted } ∧
          t.spm.plateaus = s.spm.plateaus.map (fun k => if k.slot = p.slot then q else k)) ∧
        t.ibe = { s.ibe with
          uLast := none, restartPending := true, settle := 0,
          latched :=
            match s.ibe.declared, s.csm.loadMass with
            | some _, _ => s.ibe.latched
            | none, none => some 2
            | none, some m =>
              if m < wordAt thresholds 0 then some 0
              else if m < wordAt thresholds 1 then some 1
              else if m < wordAt thresholds 2 then some 2
              else some 3,
          sagAbsent := s.ibe.declared.isNone && s.csm.loadMass.isNone } ∧
        s.sameSensing t ∧ t.spm.guard = s.spm.guard ∧ t.lkp.part = s.lkp.part ∧
        (s.ringSafe = true → t.ric = s.ric) ∧ (s.rbt.span = none → t.rbt = s.rbt))

/-- PAUSE holds a RUNNING plan with a grant of 0 and its plateau HELD; RESUME runs a PAUSED one again with the lid locked and the
latch clear, its elapsed dwell kept, with the grant of a fresh derivation: the highest steady speed out of the bands, or REBALANCE
at Sdist where there is none. In every other case each is refused ACCESS. -/
def Obligations.PauseAndResume : Prop :=
  ∀ (after : Nat) (r : CommandRequest) (s : State), s.takesCommand 0 r → s.planConsistent = true →
    let c : Caller := ⟨r.addr, 6#8, 1#8⟩
    (s.spm.plan ≠ .running → exec (.pause after r) s = s.justAnswers after c .access []) ∧
    (s.spm.plan = .running →
      ∃ t, exec (.pause after r) s = .next t ∧ t.reply .cycle = some ⟨.done, []⟩ ∧ t.spm.plan = .paused .partner ∧
        t.spm.grant.speed = 0 ∧ t.spm.derived = none ∧ t.spm.dwellTimer = none ∧ t.lkp.notices.planState = true ∧
        t.spm.plateaus = s.spm.plateaus.map (fun q => if q.isActive then { q with state := .active .held } else q) ∧
        s.planFrame t) ∧
    (s.spm.plan.isPaused = false ∨ s.tmo.lid = false ∨ s.tmo.first ≠ none →
      exec (.resume after r) s = s.justAnswers after c .access []) ∧
    (s.spm.plan.isPaused = true → s.tmo.lid = true → s.tmo.first = none →
      ∃ t p q, exec (.resume after r) s = .next t ∧ t.reply .cycle = some ⟨.done, []⟩ ∧
        (t.spm.plan = .running ∨ t.spm.plan = .paused .rebalance) ∧ t.lkp.notices.planState = true ∧
        s.active = some p ∧ t.active = some q ∧
        q = { p with state := q.state, derated := q.derated, bandAdjusted := q.bandAdjusted } ∧
        t.spm.plateaus = s.spm.plateaus.map (fun k => if k.slot = p.slot then q else k) ∧ s.planFrame t ∧
        (s.bandsSafe = true → s.spm.restartHold = false →
          ∃ c value, s.derives p c value ∧ t.derivedFrom p c value ∧ ∀ v, value = some v → t.spm.grant.speed = v))

/-- ABORT ends a RUNNING, PAUSED or LOADED plan: ACTIVE and QUEUED records are SKIPPED ABORTED, the queue is empty with the valve
closed and the water delivered so far credited (logs 15 and 27), the grant is 0, and PLAN_STATE and PLATEAU_END are posted. In
every other plan state it is refused ACCESS. -/
def Obligations.AbortEndsThePlan : Prop :=
  ∀ (after : Nat) (r : CommandRequest) (s : State), s.takesCommand 0 r →
    let c : Caller := ⟨r.addr, 6#8, 1#8⟩
    (s.spm.plan = .empty ∨ s.spm.plan = .complete ∨ s.spm.plan = .aborted →
      exec (.abort after r) s = s.justAnswers after c .access []) ∧
    (s.spm.plan = .loaded ∨ s.spm.plan = .running ∨ (∃ why, s.spm.plan = .paused why) →
      ∃ t, exec (.abort after r) s = .next t ∧ t.reply .cycle = some ⟨.done, []⟩ ∧ t.spm.plan = .aborted ∧
        t.spm.plateaus = s.spm.plateaus.map
          (fun p => if p.isActive ∨ p.isQueued then { p with state := .skipped .aborted } else p) ∧
        t.spm.grant.speed = 0 ∧ t.spm.derived = none ∧ t.spm.dwellTimer = none ∧ t.ric.queue = [] ∧
        t.ric.flush = false ∧ t.valveLine = false ∧
        (s.ringSafe = true → t.ric.contents =
          (match s.ric.queue with
            | [] => s.ric.contents
            | h :: _ => creditedTo h (s.ric.waterSoFar t.capture) s.ric.contents)) ∧
        t.ric.windows = s.ric.windows ∧
        t.ric.bleedTimer = s.ric.bleedTimer ∧ t.ric.unknownTimer = s.ric.unknownTimer ∧
        t.lkp.notices.planState = true ∧ t.lkp.notices.plateauEnd = true ∧ t.spm.guard = s.spm.guard ∧
        t.ibe = s.ibe ∧ s.sameSensing t ∧ (s.rbt.span = none → t.rbt = s.rbt))

/-- CLEAR removes every record of a plan that is not under way, and the unpinned LEARNED bands with them; a RUNNING or PAUSED plan
refuses it ACCESS. -/
def Obligations.ClearEmptiesThePlan : Prop :=
  ∀ (after : Nat) (r : CommandRequest) (s : State), s.takesCommand 0 r →
    (s.spm.plan.underway = true → exec (.clear after r) s = s.justAnswers after ⟨r.addr, 6#8, 1#8⟩ .access []) ∧
    (s.spm.plan.underway = false → s.rbt.span = none →
      ∃ t, exec (.clear after r) s = .next t ∧ t.reply .cycle = some ⟨.done, []⟩ ∧ t.spm.plan = .empty ∧
        t.spm.plateaus = [] ∧
        t.rbt.bands = s.rbt.bands.filter (fun b => b.origin ≠ .learned ∨ b.pinned = true) ∧
        (s.spm.plan ≠ .empty → t.lkp.notices.planState = true) ∧
        (s.spm.plan = .empty → t.lkp.notices = s.lkp.notices) ∧
        t.spm.guard = s.spm.guard ∧ t.ibe = s.ibe ∧ s.sameSensing t ∧ (s.ringSafe = true → t.ric = s.ric))

/-- GUARD sets the guard level, with the ceiling computed for it and, in a RUNNING plan, a held derivation from that ceiling with
the estimate update that SPM took last (log 36): the search is rejecting where its value is not c (log 12), a failed one that was
band-moved sets BAND_ADJUSTED (log 19), and a ceiling at a C of 1200 has the term SMAX (log 34). A value above 2 is refused RANGE,
and TEST with service LOCKED PROTECT. -/
def Obligations.GuardSetsTheLevel : Prop :=
  ∀ (after : Nat) (level : Word) (r : CommandRequest) (s : State), s.takesCommand 1 r → r.params = [level] →
    let c : Caller := ⟨r.addr, 6#8, 9#8⟩
    (2 < level.toNat → exec (.guard after r) s = s.justAnswers after c .range []) ∧
    (level.toNat = 2 → s.cls.unlocked = false → exec (.guard after r) s = s.justAnswers after c .protect []) ∧
    (∀ g, (level.toNat = 0 ∧ g = .normal) ∨ (level.toNat = 1 ∧ g = .tight) ∨
        (level.toNat = 2 ∧ s.cls.unlocked = true ∧ g = .test) →
      (s.spm.guard = g → exec (.guard after r) s = s.justAnswers after c .done []) ∧
      (s.spm.guard ≠ g →
        ∃ t, exec (.guard after r) s = .next t ∧ t.reply .cycle = some ⟨.done, []⟩ ∧ t.spm.guard = g ∧
          t.ceilingFits t.spm.ceiling ∧
          t.ibe = { s.ibe with latch := t.ibe.latch, ringQuiet := t.ibe.ringQuiet } ∧ s.sameSensing t ∧
          (s.spm.plan ≠ .running → t.spm.plan = s.spm.plan) ∧ t.spm.restartHold = s.spm.restartHold ∧
          (s.rbt.span = none → t.rbt = s.rbt) ∧
          (s.spm.plan = .running → s.rbt.span = none → s.spm.restartHold = false → s.tmo.first = none →
            s.tmo.lid = true → s.bandsSafe = true → s.planConsistent = true →
            ∃ p c value, s.active = some p ∧ t.derives p c value ∧ t.derivedFrom p c value ∧
              ∀ v, value = some v →
                isHeldGrant t.rbt.bands t.spm.update.settled s.spm.grant.speed v t.spm.grant.speed)))

/-! ### The load class and the bands -/

/-- AMEND of LOAD declares a class or returns to AUTO; where the table class changes with it, the smoothing restarts and the
settle count is 0, and the ceiling is computed anew (log 34 at a C of 1200). A RUNNING or PAUSED plan refuses it ACCESS, any other
value is RANGE. -/
def Obligations.AmendLoadDeclaresTheClass : Prop :=
  ∀ (after : Nat) (value : Word) (r : Request) (s : State), s.takes 1 r → r.params = [value] →
    let c : Caller := ⟨r.addr, 3#8, 8#8⟩
    (s.spm.plan.underway = true → exec (.amendLoad after r) s = s.justAnswers after c .access []) ∧
    (s.spm.plan.underway = false → 3 < value.toNat → value ≠ 0x100#16 →
      exec (.amendLoad after r) s = s.justAnswers after c .range []) ∧
    (∀ source : Option (Fin 4), s.spm.plan.underway = false →
      ((∃ k : Fin 4, value.toNat = k.val ∧ source = some k) ∨ (value = 0x100#16 ∧ source = none)) →
      let ibe := { s.ibe with
        declared := source, latched := if source.isSome then s.ibe.latched else none,
        sagAbsent := source.isSome && s.ibe.sagAbsent }
      (source.getD 2 = s.tableClass →
        exec (.amendLoad after r) s = .next
          (State.replying .cycle c ⟨.done, []⟩ { s.taking after .cycle with ibe := ibe })) ∧
      (source.getD 2 ≠ s.tableClass →
        ∃ t, exec (.amendLoad after r) s = .next t ∧ t.reply .cycle = some ⟨.done, []⟩ ∧
          t.tableClass = source.getD 2 ∧ t.ibe = { ibe with restartPending := true, settle := 0 } ∧
          t.spm.plan = s.spm.plan ∧ t.spm.plateaus = s.spm.plateaus ∧ t.ceilingFits t.spm.ceiling ∧
          t.spm.guard = s.spm.guard ∧ s.sameSensing t ∧ (s.ringSafe = true → t.ric = s.ric) ∧
          (s.rbt.span = none → t.rbt = s.rbt)))

/-- DECLARE: values out of range are RANGE; a declaration near a band is merged into the near one with the lowest lower edge,
which takes the fields of R62, and covers it whatever the merge chain does; one apart from all bands takes the lowest FREE slot;
with none FREE it is FULL. The ceiling follows the table (log 34 at a C of 1200). -/
def Obligations.DeclarePlacesABand : Prop :=
  ∀ (after : Nat) (lower upper peak : Word) (r : Request) (s : State), s.takes 3 r →
    r.params = [lower, upper, peak] → s.bandsSafe = true → s.rbt.span = none →
    let c : Caller := ⟨r.addr, 8#8, 5#8⟩
    let fits := s.sdist + 30 ≤ lower.toNat ∧ upper.toNat ≤ 1200 ∧ lower.toNat < upper.toNat ∧
      upper.toNat - lower.toNat ≤ 200 ∧ 1 ≤ peak.toNat ∧ peak.toNat ≤ 9999
    let near (b : Band) := b.lower ≤ upper.toNat + 20 ∧ lower.toNat ≤ b.upper + 20
    (¬ fits → exec (.declare after r) s = s.justAnswers after c .range []) ∧
    (fits → (∀ b ∈ s.rbt.bands, ¬ near b) → s.rbt.bands.length = 6 →
      exec (.declare after r) s = s.justAnswers after c .full []) ∧
    (∀ n, fits → (∀ b ∈ s.rbt.bands, ¬ near b ∧ b.id ≠ n) → (∀ m < n, ∃ b ∈ s.rbt.bands, b.id = m) → n < 6 →
      ∃ t, exec (.declare after r) s = .next t ∧ t.reply .cycle = some ⟨.done, [word n]⟩ ∧
        t.rbt.bands = s.rbt.bands.filter (fun b => b.id < n) ++
          ⟨n, lower.toNat, upper.toNat, peak.toNat, .declared, 0, false, false⟩ ::
            s.rbt.bands.filter (fun b => n < b.id) ∧
        t.ceilingFits t.spm.ceiling ∧ t.ibe = s.ibe ∧ t.spm.guard = s.spm.guard ∧ s.sameSensing t ∧
        (s.spm.plan ≠ .running → t.spm.plan = s.spm.plan)) ∧
    (∀ b ∈ s.rbt.bands, fits → near b → (∀ a ∈ s.rbt.bands, near a → b.lower ≤ a.lower) →
      ∃ t, exec (.declare after r) s = .next t ∧ t.reply .cycle = some ⟨.adjusted, [word b.id]⟩ ∧
        (∃ a ∈ t.rbt.bands, a.lower ≤ min b.lower lower.toNat ∧ max b.upper upper.toNat ≤ a.upper ∧
          max b.peak peak.toNat ≤ a.peak ∧ a.origin ≠ .learned) ∧
        (let merged := b.takesIn lower.toNat upper.toNat peak.toNat .declared;
         (∀ a ∈ s.rbt.bands, a.id ≠ b.id → a.upper < merged.lower ∨ merged.upper < a.lower) →
          t.rbt.bands = s.rbt.bands.map (fun a => if a.id = b.id then merged else a)) ∧
        t.rbt.bands.length ≤ s.rbt.bands.length ∧ (t.rbt.bands ≠ s.rbt.bands → t.ceilingFits t.spm.ceiling) ∧
        t.ibe = s.ibe ∧ t.spm.guard = s.spm.guard ∧ s.sameSensing t ∧
        (s.spm.plan ≠ .running → t.spm.plan = s.spm.plan))

/-- RETIRE of a band frees a DECLARED or LEARNED one, and PIN sets the pin of a LEARNED one, the ceiling following the table (log 34
at a C of 1200); ids and slots that name no such band are refused with nothing changed. -/
def Obligations.RetireAndPinBands : Prop :=
  ∀ (after : Nat) (r v : Request) (pin : Word) (s : State), s.takes 0 r → s.takes 1 v → v.params = [pin] →
    v.key = r.key → s.bandsSafe = true → s.rbt.span = none →
    let c : Caller := ⟨r.addr, 5#8, 5#8⟩
    let d : Caller := ⟨v.addr, 9#8, 5#8⟩
    (5 < r.key.toNat →
      exec (.retireBand after r) s = s.justAnswers after c .range [] ∧
      exec (.pin after v) s = s.justAnswers after d .range []) ∧
    (1 < pin.toNat → exec (.pin after v) s = s.justAnswers after d .range []) ∧
    (r.key.toNat ≤ 5 → (∀ b ∈ s.rbt.bands, b.id ≠ r.key.toNat) →
      exec (.retireBand after r) s = s.justAnswers after c .absent [] ∧
      (pin.toNat ≤ 1 → exec (.pin after v) s = s.justAnswers after d .absent [])) ∧
    (∀ b ∈ s.rbt.bands, b.id = r.key.toNat →
      (b.origin = .calibrated → exec (.retireBand after r) s = s.justAnswers after c .protect []) ∧
      (b.origin ≠ .calibrated →
        ∃ t, exec (.retireBand after r) s = .next t ∧ t.reply .cycle = some ⟨.done, []⟩ ∧
          t.rbt.bands = s.rbt.bands.filter (fun a => a.id ≠ b.id) ∧ t.ceilingFits t.spm.ceiling ∧ t.ibe = s.ibe ∧
          t.spm.guard = s.spm.guard ∧ s.sameSensing t ∧ (s.spm.plan ≠ .running → t.spm.plan = s.spm.plan)) ∧
      (pin.toNat ≤ 1 → b.origin ≠ .learned → exec (.pin after v) s = s.justAnswers after d .access []) ∧
      (pin.toNat ≤ 1 → b.origin = .learned → b.pinned = decide (pin.toNat = 1) →
        exec (.pin after v) s = s.justAnswers after d .done []) ∧
      (pin.toNat ≤ 1 → b.origin = .learned → b.pinned ≠ decide (pin.toNat = 1) →
        ∃ t, exec (.pin after v) s = .next t ∧ t.reply .cycle = some ⟨.done, []⟩ ∧
          t.rbt.bands = s.rbt.bands.map (fun a => if a.id = b.id then { a with pinned := !a.pinned } else a) ∧
          t.ceilingFits t.spm.ceiling ∧ t.ibe = s.ibe ∧ t.spm.guard = s.spm.guard ∧ s.sameSensing t ∧
          (s.spm.plan ≠ .running → t.spm.plan = s.spm.plan)))

/-! ### The injection queue -/

/-- INJECT: refused in the order of Table 7-6; one pair takes the asked grams or the room, merges into a WAITING PARTNER tail of
its chamber, or joins at the tail, and is answered with the grams taken and the orders queued. RIC itself posts orders at a
completion that leaves the estimate SETTLED at Uauto or more: the correction is shared by the two chambers beside its angle, each
share lowered to the room, and RING_EXHAUSTED is posted where neither has room. -/
def Obligations.InjectQueuesAnOrder : Prop :=
  (∀ (after : Nat) (r : Request) (s : State), r.port = .cycle → s.ready .cycle r.addr →
    let c : Caller := ⟨r.addr, 7#8, 7#8⟩
    let pairs := pairsOf r.params
    (r.params.length ∈ [2, 4, 6, 8] →
      (s.ric.flush = true → exec (.inject after r) s = s.justAnswers after c .busy []) ∧
      (s.ric.flush = false → s.cls.defaulted = true →
        exec (.inject after r) s = s.justAnswers after c .access []) ∧
      (s.ric.flush = false → s.cls.defaulted = false → (∃ p ∈ pairs, 3 < p.chamber) →
        exec (.inject after r) s = s.justAnswers after c .range []) ∧
      (s.ric.flush = false → s.cls.defaulted = false → (∀ p ∈ pairs, p.chamber ≤ 3) → s.ric.contents = none →
        exec (.inject after r) s = s.justAnswers after c .access []) ∧
      (s.ric.flush = false → s.cls.defaulted = false → (∀ p ∈ pairs, p.chamber ≤ 3) → s.ric.contents ≠ none →
        (∃ p ∈ pairs, p.grams = 0) → exec (.inject after r) s = s.justAnswers after c .range [])) ∧
    (∀ (j : Fin 4) (grams : Word) (cts : Four Nat), r.params = [BitVec.ofNat 16 j.val, grams] →
      s.ric.flush = false → s.cls.defaulted = false → s.ric.contents = some cts → grams ≠ 0#16 →
      s.ric.queue.length ≤ 8 →
      let held := ((s.ric.queue.filter (fun o => o.chamber = j)).map (fun o => o.requested - o.delivered / 1000)).sum
      let room := s.capacity - cts.get j / 1000 - held
      let taken := min grams.toNat room
      let clamped := decide (room < grams.toNat)
      (room = 0 → exec (.inject after r) s = s.justAnswers after c .full []) ∧
      (∀ front last, 0 < room → s.ric.queue = front ++ [last] → last.state = .waiting → last.chamber = j →
        last.origin = .partner →
        ∃ t, exec (.inject after r) s = .next t ∧
          t.reply .cycle = some ⟨.adjusted, [word taken, word s.ric.queue.length]⟩ ∧
          t.ric = { s.ric with
            queue := front ++ [{ last with
              requested := last.requested + taken, clamped := last.clamped || clamped }] } ∧
          t.ibe = { s.ibe with ringQuiet := 0, latch := t.ibe.latch } ∧ t.spm = s.spm ∧ t.rbt = s.rbt ∧
          s.sameSensing t) ∧
      (0 < room → (∀ last, s.ric.queue.getLast? = some last →
          last.state ≠ .waiting ∨ last.chamber ≠ j ∨ last.origin ≠ .partner) →
        (s.ric.queue.length = 8 → exec (.inject after r) s = s.justAnswers after c .full []) ∧
        (s.ric.queue.length < 8 →
          ∃ t, exec (.inject after r) s = .next t ∧
            t.reply .cycle = some
              ⟨if clamped then .adjusted else .done, [word taken, word (s.ric.queue.length + 1)]⟩ ∧
            t.ric = { s.ric with
              queue := s.ric.queue ++ [⟨j, taken, 0, .partner, .waiting, clamped⟩]
              bound := if s.ric.queue.isEmpty then (s.time + after) % 16777216 else s.ric.bound } ∧
            t.ibe = { s.ibe with ringQuiet := 0, latch := t.ibe.latch } ∧ t.spm = s.spm ∧ t.rbt = s.rbt ∧
            s.sameSensing t))) ∧
    (r.params.length ∈ [2, 4, 6, 8] → s.injectRefused pairs = none →
      ∃ t, exec (.inject after r) s = .next t ∧ t.ric.queue = (s.inject pairs).queue ∧
        t.reply .cycle = some ⟨if (s.inject pairs).adjusted then .adjusted else .done,
          (s.inject pairs).taken.reverse.map word ++ [word (s.inject pairs).queue.length]⟩ ∧
        t.ric.opening = s.ric.opening ∧ t.ric.contents = s.ric.contents ∧ t.spm = s.spm ∧ t.rbt = s.rbt ∧
        s.sameSensing t)) ∧
  (∀ (after l : Nat) (order : List Taker) (contents : Four Nat) (s : State), s.inReset = false →
    s.rtb.lastIndex = some l → 20000 ≤ sub24 (s.elapse after).capture l → s.spm.plan = .running →
    s.active.any Plateau.autoBalance = true → s.ric.opening = none → s.ric.flush = false →
    s.ric.contents = some contents → s.cls.defaulted = false →
    s.ric.queue.length ≤ 8 → (∀ o ∈ s.ric.queue, o.origin = .partner ∧ o.state = .waiting) →
    ∃ t, exec (.indexEdge after s.risingSelected order) s = .next t ∧
      ∀ u angle, t.spm.plan = .running → t.settled = true → t.ibe.uS = some u → t.ibe.angle = some angle →
        s.uAuto ≤ u → s.sinjLo ≤ t.rpm → t.rpm ≤ s.sinjHi →
        s.posts u angle (s.time + after) contents s.ric.queue t)

/-- FLUSH sets the flag where an order is queued. CANCEL closes the valve with the water delivered so far credited to the head, and
empties the queue. Both are answered DONE and change nothing else. The water delivered so far is that of the opening's own flow
(log 15) for the time since the open instant, at most the opening's duration (log 27). -/
def Obligations.FlushAndCancel : Prop :=
  ∀ (after : Nat) (r : CommandRequest) (s : State), s.takesCommand 0 r →
    let c : Caller := ⟨r.addr, 6#8, 7#8⟩
    let found := s.taking after .cycle
    exec (.flush after r) s = .next
      (State.replying .cycle c ⟨.done, []⟩
        { found with ric := { s.ric with flush := s.ric.flush || !s.ric.queue.isEmpty } }) ∧
    (s.ric.opening = none →
      exec (.cancel after r) s = .next
        (State.replying .cycle c ⟨.done, []⟩ { found with ric := { s.ric with queue := [], flush := false } })) ∧
    (∀ o h rest, s.ric.opening = some o → s.ric.queue = h :: rest →
      let now := (s.time + after) % 16777216
      let delivered := h.delivered + o.flow * min (sub24 now o.opens) o.duration / 1000
      exec (.cancel after r) s = .next
        (State.replying .cycle c ⟨.done, []⟩
          { found with ric := { s.ric with
              opening := none, queue := [], flush := false,
              contents := s.ric.contents.map (fun k =>
                k.set h.chamber (k.get h.chamber + 1000 * (delivered / 1000 - h.delivered / 1000)))
              bound := if h.requested * 1000 ≤ delivered ∧ rest ≠ [] then now else s.ric.bound } }))

/-! ### The part itself -/

/-- CLEAR_TRIP by the first case of R158: DONE with the latch clear, BUSY away from rest or with the strike state ASSERTED, else
DONE with latch, first cause and cause set cleared and TRIP negated, and no notice. -/
def Obligations.ClearTripClearsTheLatch : Prop :=
  ∀ (after : Nat) (r : CommandRequest) (s : State), s.takesCommand 0 r →
    let c : Caller := ⟨r.addr, 6#8, 9#8⟩
    (s.tmo.first = none → exec (.clearTrip after r) s = s.justAnswers after c .done []) ∧
    (s.tmo.first ≠ none → s.rtb.atRest = false → exec (.clearTrip after r) s = s.justAnswers after c .busy []) ∧
    (s.tmo.first ≠ none → s.rtb.atRest = true → s.tmo.strike = true →
      exec (.clearTrip after r) s = s.justAnswers after c .busy []) ∧
    (s.tmo.first ≠ none → s.rtb.atRest = true → s.tmo.strike = false →
      ∃ t, exec (.clearTrip after r) s = .next t ∧ t.reply .cycle = some ⟨.done, []⟩ ∧
        t.tmo = { s.tmo with first := none, causes := CauseSet.none } ∧ t.tripLine = false ∧
        (s.spm.plan ≠ .running → t.spm.plan = s.spm.plan) ∧
        (s.spm.plan ≠ .running → s.rbt.span = none → t.lkp.notices = s.lkp.notices) ∧
        t.ric.frozen = t.freezeCondition ∧ (s.ringSafe = true → s.ringFollows t) ∧
        t.rtb = s.rtb ∧ t.csm = s.csm ∧ t.ibe = s.ibe ∧ t.cls = s.cls ∧ t.lkp.part = s.lkp.part ∧
        t.spm.guard = s.spm.guard ∧ t.strikePin = s.strikePin ∧ t.lidPin = s.lidPin)

/-- QUIET: RANGE outside 1 to 7, BUSY with a plan under way, the basket TURNING or the latch set, else QUIET_PENDING for n × 100 ms
with a grant of 0 and the queue frozen as R144 says (logs 15 and 27), answered unless it was broadcast. RESET is answered DONE, and
its reset follows the answer. -/
def Obligations.QuietAndReset : Prop :=
  ∀ (after : Nat) (n : Word) (r v : CommandRequest) (s : State), s.takesCommand 0 v →
    r.port = .cycle → r.params = [n] → s.inReset = false → s.lkp.part = .run → s.lkp.cycle.inProgress = none →
    let c : Caller := ⟨r.addr, 6#8, 9#8⟩
    let taken (t : State) := t.lkp.part = .quietPending ∧
      t.lkp.quietTimer = some (s.time + after + n.toNat * 100000) ∧ t.spm.grant.speed = 0 ∧ t.ric.frozen = true ∧
      t.spm.plan = s.spm.plan ∧ t.ibe = s.ibe ∧ s.sameSensing t ∧ (s.ringSafe = true → s.ringFollows t)
    let refused := n.toNat < 1 ∨ 7 < n.toNat ∨ s.spm.plan.underway = true ∨ s.rtb.speedState = .turning ∨
      s.tmo.first ≠ none
    exec (.reset after v) s = .next ((s.taking after .cycle).setPort .cycle
      { (s.taking after .cycle).portOf .cycle with
        inProgress := some ⟨⟨v.addr, 6#8, 9#8⟩, some ⟨.done, []⟩, true⟩ }) ∧
    (s.cls.value 1 = r.addr.toNat →
      (n.toNat < 1 ∨ 7 < n.toNat → exec (.quiet after r) s = s.justAnswers after c .range []) ∧
      (1 ≤ n.toNat → n.toNat ≤ 7 → refused → exec (.quiet after r) s = s.justAnswers after c .busy []) ∧
      (¬ refused → ∃ t, exec (.quiet after r) s = .next t ∧ taken t ∧ t.reply .cycle = some ⟨.done, []⟩)) ∧
    (r.addr = 15#8 → s.cls.value 1 ≠ 15 →
      (refused → exec (.quiet after r) s = .next (s.taking after .cycle)) ∧
      (¬ refused → ∃ t, exec (.quiet after r) s = .next t ∧ taken t ∧ t.lkp.cycle.inProgress = none))

/-! ### The store -/

/-- KEY_VERIFY by the first case of R183. -/
def Obligations.KeyVerifyUnlocksService : Prop :=
  ∀ (after : Nat) (r : Request) (i : Item) (s : State), s.takes 4 r → s.cls.item 6 = some i →
    let c : Caller := ⟨r.addr, 11#8, 10#8⟩
    (i.source ≠ .stored → exec (.keyVerify after r) s = s.justAnswers after c .access []) ∧
    (i.source = .stored → s.cls.lockout = true →
      exec (.keyVerify after r) s = s.justAnswers after c .protect []) ∧
    (i.source = .stored → s.cls.lockout = false → r.params = i.held →
      exec (.keyVerify after r) s = .next
        (State.replying .cycle c ⟨.done, []⟩ { s.taking after .cycle with cls := { s.cls with unlocked := true } })) ∧
    (i.source = .stored → s.cls.lockout = false → r.params ≠ i.held →
      exec (.keyVerify after r) s = .next
        (State.replying .cycle c ⟨.protect, []⟩ { s.taking after .cycle with cls := { s.cls with lockout := true } }))

/-- LOCK makes service LOCKED and leaves the lockout; guard TEST falls back to the default guard item with its ceiling
(log 34 at a C of 1200). -/
def Obligations.LockEndsService : Prop :=
  ∀ (after : Nat) (r : CommandRequest) (s : State), s.takesCommand 0 r →
    let c : Caller := ⟨r.addr, 6#8, 10#8⟩
    let cls := { s.cls with unlocked := false }
    (s.spm.guard ≠ .test →
      exec (.lock after r) s = .next
        (State.replying .cycle c ⟨.done, []⟩ { s.taking after .cycle with cls := cls })) ∧
    (s.spm.guard = .test →
      ∃ t, exec (.lock after r) s = .next t ∧ t.reply .cycle = some ⟨.done, []⟩ ∧ t.cls = cls ∧
        t.spm.guard = (if s.cls.value 28 = 0 then .normal else .tight) ∧ t.ceilingFits t.spm.ceiling ∧
        t.rtb = s.rtb ∧ t.csm = s.csm ∧ t.tmo = s.tmo ∧ t.lkp.part = s.lkp.part ∧
        (s.spm.plan ≠ .running → t.spm.plan = s.spm.plan))

/-- CAL_WRITE is tested in the order of R180, its words against the ranges of Tables 10-2 and 10-3 (bounds against other items by the
cross checks alone, log 20); one that is taken puts its words in force, makes the source STORED, has its effect on the blocks whose
values in force it changes (log 17; a capacity by log 16, with the water of an open valve by logs 15 and 27) and on no other, the
ceiling computed anew with it (log 34 at a C of 1200), and holds its answer back until programming ends. Then the words are stored
and the answer of the CAL_WRITE in progress is DONE. With no programming the end of one only lets its time pass (log 3). -/
def Obligations.CalWriteTakesAnItem : Prop :=
  ∀ (after : Nat) (s : State),
    (∀ (r : Request) (spec : ItemSpec) (i : Item), s.takes 16 r →
      let c : Caller := ⟨r.addr, 10#8, 10#8⟩
      (specOf r.key.toNat = none → exec (.calWrite after r) s = s.justAnswers after c .absent []) ∧
      (specOf r.key.toNat = some spec → s.cls.item r.key.toNat = some i →
        let words := r.params.take spec.words
        let protect := (spec.fixed = true ∧ i.source ≠ .blank) ∨ (spec.fixed = false ∧ s.cls.unlocked = false)
        let fits := wordsInRange r.key.toNat words ∧ s.cls.crossChecks r.key.toNat words
        (s.spm.plan.underway = true → exec (.calWrite after r) s = s.justAnswers after c .access []) ∧
        (s.spm.plan.underway = false → protect → exec (.calWrite after r) s = s.justAnswers after c .protect []) ∧
        (s.spm.plan.underway = false → ¬ protect → ¬ fits →
          exec (.calWrite after r) s = s.justAnswers after c .range []) ∧
        (s.spm.plan.underway = false → ¬ protect → fits →
          ∃ t, exec (.calWrite after r) s = .next t ∧ t.lkp.cycle.inProgress = some ⟨c, none, false⟩ ∧
            t.cls = { s.cls with
              items := s.cls.items.map (fun k =>
                if k.num = r.key.toNat then { k with source := .stored, held := words } else k)
              programming := some ⟨r.key.toNat, words⟩ } ∧
            s.consumes t ∧ t.time = s.time + after ∧ t.tmo = s.tmo ∧ t.lkp.part = s.lkp.part ∧
            t.lkp.drive = s.lkp.drive ∧ t.rst = s.rst ∧ t.startUp = s.startUp ∧ t.strikePin = s.strikePin ∧
            t.lidPin = s.lidPin))) ∧
    (∀ (p : Programming) (q : InProgress), s.inReset = false → s.cls.programming = some p →
      s.lkp.cycle.inProgress = some { q with answer := none } →
      exec (.programmingDone after) s = .next { s with
        time := s.time + after
        cls := { s.cls with
          items := s.cls.items.map (fun k => if k.num = p.item then { k with stored := p.words, checkOk := true } else k)
          programming := none }
        lkp := { s.lkp with cycle := { s.lkp.cycle with
          inProgress := some { q with answer := some ⟨.done, []⟩ } } } }) ∧
    (s.inReset = false → s.cls.programming = none → exec (.programmingDone after) s = .next (s.elapse after))

/-! ### Rules of computation -/

/-- The force limit is the largest integer from 0 to 1200 that passes the test of R78, and 1200 for U = 0. -/
def Obligations.ForceLimitIsExact : Prop :=
  ∀ u kf g : Nat, u ≤ 9999 →
    (u = 0 → forceLimit u kf g = 1200) ∧
    (1 ≤ u → forceLimit u kf g ≤ 1200 ∧ u * forceLimit u kf g ^ 2 * 100 ≤ kf ^ 2 * g ∧
      ∀ n ≤ 1200, u * n ^ 2 * 100 ≤ kf ^ 2 * g → n ≤ forceLimit u kf g)

/-- Without a restart, each component of S moves by a quarter of the way toward O, rounded to the nearest integer with halves away
from zero (R42). With guard TEST in force S becomes O instead, U_rev and U_s are equal, and the estimate is SETTLED with the
injection mark clear (R47); a change of guard changes no stored vector. -/
def Obligations.SmoothingMovesAQuarter : Prop :=
  ∀ (c : Completion) (s : State),
    let o := c.meanOrbit
    let t := s.validRevolution c
    let quarter (d q : Int) := |4 * q - d| ≤ 2 ∧ (|4 * q - d| = 2 → |d| < 4 * |q|)
    (∀ old, s.ibe.smooth = some old → s.ibe.restarts c.speed = false → s.spm.guard ≠ .test →
      ∃ x y, t.ibe.smooth = some ⟨old.x + x, old.y + y⟩ ∧ quarter (o.x - old.x) x ∧ quarter (o.y - old.y) y) ∧
    (s.ibe.restarts c.speed = true → t.ibe.smooth = some o) ∧
    (s.spm.guard = .test →
      t.ibe.smooth = some o ∧ t.ibe.uRev.isSome = true ∧ t.ibe.uRev = t.ibe.uS ∧
      (s.ibe.injectionMark = false → t.settled = true)) ∧
    (∀ g, (s.changeGuard g).ibe.smooth = s.ibe.smooth ∧ (s.changeGuard g).ibe.orbit = s.ibe.orbit)

/-! ### What every step keeps -/

/-- The state after reset keeps every invariant below. -/
def Obligations.ResetStateKeepsTheInvariants : Prop :=
  State.reset.imageCurrent = true ∧ State.reset.causesConsistent = true ∧ State.reset.partConsistent = true ∧
  State.reset.ringSafe = true ∧ State.reset.planConsistent = true ∧ State.reset.planCurrent = true ∧
  State.reset.bandsSafe = true ∧ State.reset.grantSafe = true ∧ State.reset.updateCurrent = true ∧ State.reset.cls.storeFits = true ∧
  State.reset.recordFits ∧ State.reset.ceilingCurrent

/-- Every step keeps the grant image equal to the grant record, the cause set in keeping with the latch, the part state in keeping
with its timers and the resets in force, the estimate update that SPM holds in keeping with the estimate (log 36), and the store in
the shape of its tables. -/
def Obligations.StepKeepsImageCausesAndPart : Prop :=
  ∀ s t : State, step s = .next t →
    (s.imageCurrent = true → t.imageCurrent = true) ∧
    (s.causesConsistent = true → t.causesConsistent = true) ∧
    (s.partConsistent = true → t.partConsistent = true) ∧
    (s.updateCurrent = true → t.updateCurrent = true) ∧
    (s.cls.storeFits = true → t.cls.storeFits = true)

/-- Every step keeps the ring safe: frozen exactly when it must be, at most 8 orders with none but the head SERVING, none while the
queue is frozen, and no two adjacent ones that merge, and the valve open only for a SERVING head with the queue not frozen. -/
def Obligations.StepKeepsTheRingSafe : Prop :=
  ∀ s t : State, step s = .next t → s.ringSafe = true → t.ringSafe = true

/-- Every step keeps the plan consistent: distinct slots below 8, the records its state allows, a derived value exactly while
RUNNING, and the dwell timer stopped where it must not run. With it the plan stays current: the grant of REBALANCE is Sdist unless it
is forced to 0, and the dwell timer runs wherever it must. -/
def Obligations.StepKeepsThePlanConsistent : Prop :=
  ∀ s t : State, step s = .next t → s.planConsistent = true →
    t.planConsistent = true ∧ (s.planCurrent = true → t.planCurrent = true)

/-- Every step keeps the band table: distinct ids below 6, every band in range, and no two bands that overlap or touch. -/
def Obligations.StepKeepsTheBandsApart : Prop :=
  ∀ s t : State, step s = .next t → s.bandsSafe = true → t.bandsSafe = true

/-- Every step keeps the grant safe: 0 while anything forces it, never above the ceiling, and never inside a band; the ceiling in
force that of stages A to D for the inputs in force (R77 to R83, log 34 at a C of 1200); and the grant record with the slot of the
active plateau, the ramp class of R116 and the reason of Table 6-11 (logs 12, 26 and 30). -/
def Obligations.StepKeepsTheGrantSafe : Prop :=
  ∀ s t : State, step s = .next t → s.planConsistent = true → s.bandsSafe = true → s.grantSafe = true →
    t.grantSafe = true ∧ (s.ceilingCurrent → t.ceilingCurrent) ∧ (s.recordFits → t.recordFits)
end

