-- ==== Sys2Proof/Laws/Arith.lean ====
section
/-! SUPPORT. What the arithmetic gives, in the words of Safety.lean: rounding, square roots, magnitudes, searches from above. -/

namespace Sys2Proof.Machine

theorem isRounded_roundDiv (n : Int) (d : Nat) (hd : 0 < d) : isRounded n d (roundDiv n d) := by
  have hd' : (0 : Int) < d := by exact_mod_cast hd
  unfold isRounded roundDiv
  split
  · next h =>
    have h1 := Int.mul_ediv_add_emod (2 * n + d) (2 * d)
    have h2 := Int.emod_nonneg (2 * n + d) (show (2 * (d : Int)) ≠ 0 by omega)
    have h3 := Int.emod_lt_of_pos (2 * n + d) (show 0 < 2 * (d : Int) by omega)
    have hq : 0 ≤ (2 * n + d) / (2 * (d : Int)) := Int.ediv_nonneg (by omega) (by omega)
    generalize (2 * n + d) / (2 * (d : Int)) = q at *
    have e : 2 * (d : Int) * q = 2 * (d * q) := by ring
    rw [e] at h1
    rw [abs_of_nonneg h, abs_of_nonneg hq]
    generalize (d : Int) * q = x at *
    rcases abs_cases (n - x) with ⟨hx, _⟩ | ⟨hx, _⟩ <;> rw [hx] <;> constructor <;> omega
  · next h =>
    have h1 := Int.mul_ediv_add_emod (2 * (-n) + d) (2 * d)
    have h2 := Int.emod_nonneg (2 * (-n) + d) (show (2 * (d : Int)) ≠ 0 by omega)
    have h3 := Int.emod_lt_of_pos (2 * (-n) + d) (show 0 < 2 * (d : Int) by omega)
    have hq : 0 ≤ (2 * (-n) + d) / (2 * (d : Int)) := Int.ediv_nonneg (by omega) (by omega)
    generalize (2 * (-n) + d) / (2 * (d : Int)) = q at *
    have e : 2 * (d : Int) * q = 2 * (d * q) := by ring
    have e' : (d : Int) * -q = -(d * q) := by ring
    rw [e] at h1
    rw [e', abs_neg, abs_of_nonneg hq, abs_of_neg (by omega : n < 0)]
    generalize (d : Int) * q = x at *
    rcases abs_cases (n - -x) with ⟨hx, _⟩ | ⟨hx, _⟩ <;> rw [hx] <;> constructor <;> omega

/-- The bits still to be tried close the gap between the root so far and the next square. -/
theorem isqrtLoop_spec (n b r : Nat) (lower : r * r ≤ n) (upper : n < (r + 2 ^ b) * (r + 2 ^ b)) :
    isqrtLoop n b r * isqrtLoop n b r ≤ n ∧ n < (isqrtLoop n b r + 1) * (isqrtLoop n b r + 1) := by
  induction b generalizing r with
  | zero => exact ⟨lower, by simpa [isqrtLoop] using upper⟩
  | succ b ih =>
    unfold isqrtLoop
    split
    · next h => exact ih _ h (by rw [pow_succ] at upper; convert upper using 2 <;> ring)
    · next h => exact ih _ lower (by omega)

theorem isqrt_spec (n : Nat) : isqrt n * isqrt n ≤ n ∧ n < (isqrt n + 1) * (isqrt n + 1) := by
  refine isqrtLoop_spec n _ 0 (Nat.zero_le _) ?_
  have h : n < 2 ^ (n.log2 + 1) := Nat.lt_log2_self
  refine lt_of_lt_of_le h ?_
  rw [Nat.zero_add, ← pow_add]
  exact Nat.pow_le_pow_right (by norm_num) (by omega)

theorem isMagnitude_magnitude (v : Vec) : isMagnitude v (magnitude v) := by
  unfold isMagnitude magnitude
  have e : 4 * (v.x ^ 2 + v.y ^ 2) = ((4 * (v.x.natAbs * v.x.natAbs + v.y.natAbs * v.y.natAbs) : Nat) : Int) := by
    push_cast [Int.natCast_natAbs, abs_mul_abs_self]; ring
  rw [e]
  obtain ⟨low, high⟩ := isqrt_spec (4 * (v.x.natAbs * v.x.natAbs + v.y.natAbs * v.y.natAbs))
  generalize 4 * (v.x.natAbs * v.x.natAbs + v.y.natAbs * v.y.natAbs) = n at *
  generalize isqrt n = t at *
  have low' : (t : Int) * t ≤ n := by exact_mod_cast low
  have high' : (n : Int) < (t + 1) * (t + 1) := by exact_mod_cast high
  rcases Nat.even_or_odd' t with ⟨k, rfl | rfl⟩
  · rw [show (2 * k + 1) / 2 = k by omega]
    push_cast at low' high'
    refine ⟨by nlinarith, ?_⟩
    rcases Nat.eq_zero_or_pos k with h | h
    · exact Or.inl h
    · right
      have : (1 : Int) ≤ k := by exact_mod_cast h
      nlinarith
  · rw [show (2 * k + 1 + 1) / 2 = k + 1 by omega]
    push_cast at low' high' ⊢
    exact ⟨by nlinarith, Or.inr (by nlinarith)⟩

/-- The search from above stops at the first number that passes. -/
theorem largestPassing_spec (p : Nat → Bool) (top : Nat) :
    largestPassing p top ≤ top ∧ (largestPassing p top = 0 ∨ p (largestPassing p top) = true) ∧
      ∀ n ≤ top, p n = true → n ≤ largestPassing p top := by
  induction top with
  | zero => exact ⟨le_rfl, Or.inl rfl, fun n hn _ => hn⟩
  | succ m ih =>
    unfold largestPassing
    split
    · next h => exact ⟨le_rfl, Or.inr h, fun n hn _ => hn⟩
    · next h =>
      refine ⟨ih.1.trans (Nat.le_succ m), ih.2.1, fun n hn hp => ?_⟩
      rcases Nat.lt_or_ge m n with hm | hm
      · exact absurd (by rwa [show n = m + 1 by omega] at hp) h
      · exact ih.2.2 n hm hp

end Sys2Proof.Machine
end

