-- ==== Sys2Proof/Laws/Grant.lean ====
section
/-! SUPPORT. The ceiling, the derivation and the grant record that SPM computes are those of the rules, in the words of Safety.lean. -/

namespace Sys2Proof.Machine

/-- The first band of the ascending table that passes a test is the one with the lowest lower edge. -/
theorem ascending_find_spec (p : Band → Bool) (bs : List Band) :
    match (ascending bs).find? p with
    | some b => b ∈ bs ∧ p b = true ∧ ∀ a ∈ bs, p a = true → b.lower ≤ a.lower
    | none => ∀ b ∈ bs, p b = false := by
  have perm : (ascending bs).Perm bs := List.perm_insertionSort _ bs
  have sorted : (ascending bs).Pairwise (fun a b => a.lower ≤ b.lower) :=
    List.pairwise_insertionSort (r := fun a b : Band => a.lower ≤ b.lower) bs
  split
  · next b h =>
    refine ⟨perm.mem_iff.1 (List.mem_of_find?_eq_some h), List.find?_some h, fun a ha hp => ?_⟩
    obtain ⟨pre, post, hl, hpre⟩ := (List.find?_eq_some_iff_append.1 h).2
    rw [hl] at sorted
    have ha' : a ∈ pre ++ b :: post := hl ▸ perm.mem_iff.2 ha
    rcases List.mem_append.1 ha' with m | m
    · exact absurd hp (by simpa using hpre a m)
    · rcases List.mem_cons.1 m with rfl | m
      · exact le_rfl
      · exact (List.pairwise_cons.1 (List.pairwise_append.1 sorted).2.1).1 a m
  · next h =>
    intro b hb
    simpa using List.find?_eq_none.1 h b (perm.mem_iff.2 hb)

theorem State.isBandLimit_limitingBand (s : State) :
    s.isBandLimit
      (bandLimit (limitingBand s.rbt.bands s.rpm s.spm.update.u s.lcross s.guardFactor))
      ((limitingBand s.rbt.bands s.rpm s.spm.update.u s.lcross s.guardFactor).map Band.id) := by
  have iff : ∀ b, (decide (s.rpm < b.upper) && decide (s.lcross * s.guardFactor < s.spm.update.u * b.peak)) = true ↔
      s.blocks b := by simp [State.blocks]
  have h := ascending_find_spec
    (fun b => decide (s.rpm < b.upper) && decide (s.lcross * s.guardFactor < s.spm.update.u * b.peak)) s.rbt.bands
  unfold State.isBandLimit limitingBand
  split at h
  · next b e =>
    obtain ⟨mem, hp, low⟩ := h
    rw [e]
    exact Or.inl ⟨b, mem, (iff b).1 hp, fun a ha hb => low a ha ((iff a).2 hb), rfl, rfl⟩
  · next e =>
    rw [e]
    exact Or.inr ⟨fun b hb hk => Bool.noConfusion ((h b hb).symm.trans ((iff b).2 hk)), rfl, rfl⟩

/-- The ceiling that SPM computes is the one of its stages, where stage A is the force limit. -/
theorem State.ceilingFits_ceilingNow (s : State)
    (stageA : isForceLimit s.spm.update.u s.kf s.guardFactor (forceLimit s.spm.update.u s.kf s.guardFactor)) :
    s.ceilingFits s.ceilingNow := by
  refine ⟨_, _, _, stageA, s.isBandLimit_limitingBand, ?_⟩
  unfold State.ceilingNow ceilingOf
  generalize forceLimit s.spm.update.u s.kf s.guardFactor = sf
  generalize limitingBand s.rbt.bands s.rpm s.spm.update.u s.lcross s.guardFactor = band
  generalize bandLimit band = sb
  generalize s.smax = smax
  generalize s.sdist = sdist
  dsimp only
  cases s.spm.update.degraded <;> by_cases hg : s.spm.guard = .test <;>
    simp only [hg, if_true, if_false, Bool.false_eq_true] <;>
    refine ⟨trivial, fun h => ?_, fun h k => ?_, fun h k l => ?_, fun h k l => ?_,
      fun h k l => ⟨fun m => ?_, fun m n => ?_, fun m n => ?_⟩, trivial⟩ <;>
    (repeat' split) <;> first | rfl | omega

/-- Moves out of the bands end in none of them, as often as there are bands at or below the speed. -/
theorem isMovedOut_moveOut (bs : List Band) (margin : ∀ b ∈ bs, 20 ≤ b.lower) (fuel c : Nat)
    (enough : bs.countP (fun b => b.lower ≤ c) ≤ fuel) : isMovedOut bs c (moveOut (ascending bs) fuel c) := by
  induction fuel generalizing c with
  | zero =>
    refine ⟨.refl, fun b hb => Or.inl ?_⟩
    have := List.countP_eq_zero.1 (Nat.le_zero.1 enough) b hb
    simp only [decide_eq_true_eq] at this
    exact Nat.lt_of_not_le this
  | succ n ih =>
    have h := ascending_find_spec (fun b => b.inside c) bs
    unfold moveOut
    split
    · next e =>
      rw [e] at h
      refine ⟨.refl, fun b hb => ?_⟩
      have := h b hb
      simp only [Band.inside, Bool.and_eq_false_iff, decide_eq_false_iff_not] at this
      omega
    · next b e =>
      rw [e] at h
      obtain ⟨mem, inside, low⟩ := h
      simp only [Band.inside, Bool.and_eq_true, decide_eq_true_eq] at inside low
      have hm := margin b mem
      have fewer : bs.countP (fun a => a.lower ≤ b.lower - 20) < bs.countP (fun a => a.lower ≤ c) := by
        have split2 : bs.countP (fun a => a.lower ≤ b.lower - 20) + 1 ≤
            bs.countP (fun a => a.lower ≤ b.lower - 20) + bs.countP (fun a => decide (a = b)) := by
          have : 0 < bs.countP (fun a => decide (a = b)) := List.countP_pos_iff.2 ⟨b, mem, by simp⟩
          omega
        refine lt_of_lt_of_le (Nat.lt_of_succ_le split2) ?_
        clear split2 ih enough e low mem margin
        induction bs with
        | nil => simp
        | cons a as ih2 =>
          simp only [List.countP_cons, decide_eq_true_eq]
          by_cases ha : a = b
          · subst ha
            rw [if_neg (by omega), if_pos rfl, if_pos inside.1]
            omega
          · rw [if_neg ha]
            split <;> split <;> omega
      obtain ⟨path, out⟩ := ih (b.lower - 20) (by omega)
      exact ⟨.head ⟨b, mem, inside.1, inside.2, fun a ha h1 h2 => low a ha ⟨h1, h2⟩, rfl⟩ path, out⟩

theorem State.isMovedOut_outOfBands (s : State) (margin : ∀ b ∈ s.rbt.bands, 20 ≤ b.lower) (c : Nat) :
    isMovedOut s.rbt.bands c (s.outOfBands c) :=
  isMovedOut_moveOut _ margin _ _ List.countP_le_length

theorem isCandidate_of_mem {c b n : Nat} (h : n ∈ candidates c b) : isCandidate c b n := by
  unfold candidates at h
  split at h
  · cases h
  · rcases List.mem_append.1 h with m | m
    · obtain ⟨i, hi, rfl⟩ := List.mem_map.1 m
      have := List.mem_range.1 hi
      exact ⟨by omega, Or.inr ⟨by omega, by omega⟩⟩
    · have := List.mem_singleton.1 m
      exact ⟨by omega, Or.inl this⟩

theorem mem_candidates {c b n : Nat} (h : isCandidate c b n) : n ∈ candidates c b := by
  obtain ⟨le, rfl | ⟨lt, tens⟩⟩ := h <;> unfold candidates <;> rw [if_neg (by omega)]
  · exact List.mem_append_right _ (List.mem_singleton.2 rfl)
  · exact List.mem_append_left _ (List.mem_map.2 ⟨(c - n) / 10, List.mem_range.2 (by omega), by omega⟩)

/-- The candidates fall. -/
theorem candidates_pairwise (c b : Nat) : (candidates c b).Pairwise (fun x y => y ≤ x) := by
  unfold candidates
  split
  · exact .nil
  · refine List.pairwise_append.2 ⟨?_, List.pairwise_singleton _ _, fun x hx y hy => ?_⟩
    · exact List.pairwise_map.2 (List.pairwise_lt_range.imp fun h => by omega)
    · obtain ⟨i, hi, rfl⟩ := List.mem_map.1 hx
      have := List.mem_range.1 hi
      have := List.mem_singleton.1 hy
      omega

theorem State.steady_iff (s : State) (n : Nat) :
    (!s.rbt.bands.any (fun band => band.inside n) && s.runsSteady n) = true ↔ s.steady n := by
  simp only [State.steady, State.runsSteady, Bool.and_eq_true, Bool.not_eq_true', List.any_eq_false, Band.inside,
    decide_eq_true_eq, not_and, Nat.not_le]
  exact and_congr_left' (forall₂_congr fun b _ => ⟨fun h => by by_cases k : b.lower ≤ n <;> [exact Or.inr (h k); exact Or.inl (by omega)],
    fun h k => by omega⟩)

/-- Steps 1 to 3 of the derivation are those of the rules, where every band begins at 20 rpm or above. -/
theorem State.derives_derivation (p : Plateau) (s : State) (margin : ∀ b ∈ s.rbt.bands, 20 ≤ b.lower) :
    s.derives p (s.outOfBands (min p.target s.spm.ceiling.value)) (s.derivation p).value := by
  refine ⟨s.isMovedOut_outOfBands margin _, fun h => ?_, fun h => ⟨fun v hv => ?_, fun hn n hc hs => ?_⟩⟩ <;>
    unfold State.derivation at *
  · rw [if_pos h]
  · rw [if_neg (by omega)] at hv
    obtain ⟨pass, pre, post, list, before⟩ := List.find?_eq_some_iff_append.1 hv
    have mem : v ∈ candidates (s.outOfBands (min p.target s.spm.ceiling.value)) (max (p.floor.getD 0) s.sdist) := by
      rw [list]; simp
    refine ⟨isCandidate_of_mem mem, (s.steady_iff v).1 pass, fun n hc hs => ?_⟩
    have falls := candidates_pairwise (s.outOfBands (min p.target s.spm.ceiling.value)) (max (p.floor.getD 0) s.sdist)
    have hn := mem_candidates hc
    rw [list] at falls hn
    rcases List.mem_append.1 hn with m | m
    · have := before n m
      rw [(s.steady_iff n).2 hs] at this
      exact absurd this (by simp)
    · rcases List.mem_cons.1 m with rfl | m
      · exact le_rfl
      · exact (List.pairwise_cons.1 (List.pairwise_append.1 falls).2.1).1 n m
  · rw [if_neg (by omega)] at hn
    exact absurd ((s.steady_iff n).2 hs) (List.find?_eq_none.1 hn n (mem_candidates hc))

theorem State.rampFits_of (s : State)
    (h : s.spm.grant.ramp = rampFor s.rbt.bands s.spm.grant.speed s.rpm s.rtb.atRest) : s.rampFits := by
  have any : s.rbt.bands.any (fun b => (decide (s.rpm < b.lower) && decide (b.lower < s.spm.grant.speed)) ||
      (b.inside s.rpm && decide (b.upper < s.spm.grant.speed))) = true ↔
      ∃ b ∈ s.rbt.bands, (s.rpm < b.lower ∧ b.lower < s.spm.grant.speed) ∨
        (b.lower ≤ s.rpm ∧ s.rpm ≤ b.upper ∧ b.upper < s.spm.grant.speed) := by
    simp [Band.inside, and_assoc]
  unfold State.rampFits
  rw [h]
  unfold rampFor
  refine ⟨fun g => by rw [if_pos g], fun g k => ?_, fun g k c => ?_, fun g k c => ?_⟩ <;> rw [if_neg (by omega)]
  · rw [if_pos k]
  · rw [if_neg (by omega), if_pos (any.2 c)]
  · rw [if_neg (by omega), if_neg (fun k => c (any.1 k))]

theorem State.reasonShown_eq (s : State) : s.grantReason s.spm.grant.speed = s.reasonShown := by
  unfold State.grantReason State.reasonShown State.tripped
  cases s.tmo.first with
  | some _ => rfl
  | none =>
    cases s.tmo.lid with
    | false => rfl
    | true =>
      cases s.spm.restartHold with
      | true => rfl
      | false =>
        generalize hp : s.spm.plan = plan
        cases s.lkp.part <;> try rfl
        rcases plan with _ | _ | _ | ⟨_ | _ | _ | _⟩ | _ | _ <;> try rfl
        · unfold State.runningReason
          cases s.active with
          | none => simp
          | some p => by_cases g : s.spm.grant.speed < p.target <;> simp [g]
        · cases s.rtb.atRest <;> rfl
        · cases s.rtb.atRest <;> rfl

/-- A record as an evaluation makes it is current. -/
theorem State.recordShown_of (s : State) (h : s.spm.grant = s.grantRecord s.spm.grant.speed)
    (speed : s.grantSpeed s.spm.grant.speed = s.spm.grant.speed) : s.recordShown :=
  ⟨(congrArg GrantRecord.slot h).trans rfl,
    s.rampFits_of ((congrArg GrantRecord.ramp h).trans (by simp [State.grantRecord, speed])),
    (congrArg GrantRecord.reason h).trans (by simp [State.grantRecord, speed, s.reasonShown_eq])⟩

theorem State.recordFits_of (s : State) (h : s.spm.grant = s.grantRecord s.spm.grant.speed)
    (speed : s.grantSpeed s.spm.grant.speed = s.spm.grant.speed) : s.recordFits :=
  Or.inr (s.recordShown_of h speed)

/-- The speed of Table 6-10 is its own: evaluating it again changes nothing. -/
theorem State.grantSpeed_idem (want : Nat) (s : State) : s.grantSpeed (s.grantSpeed want) = s.grantSpeed want := by
  unfold State.grantSpeed
  cases s.grantForced
  · rcases s.spm.plan with _ | _ | _ | ⟨_ | _ | _ | _⟩ | _ | _ <;> rfl
  · rfl

/-- All that an evaluation away from rest can do: the record is made anew, a record that changes is shown, and of the plan only the
arrival count, the window flag and the dwell timer can follow (R117, R118, R122). -/
theorem State.evaluateGrant_moving {want : Nat} {s : State} (h : s.rtb.atRest = false) :
    ∃ arrival inWindow dwellTimer,
      s.evaluateGrant want = { s with
        spm := { s.spm with
          grant := s.grantRecord want, arrival := arrival, inWindow := inWindow, dwellTimer := dwellTimer }
        lkp := if s.grantRecord want = s.spm.grant then s.lkp
          else { s.lkp with image := s.grantRecord want, driveAtn := true } } := by
  have still : ∀ t : State, t.rtb.atRest = false → t.arriveAtZero = t := fun t k => by simp [State.arriveAtZero, k]
  unfold State.evaluateGrant State.putGrant State.speedChanged
  by_cases e : s.grantRecord want = s.spm.grant
  · simp only [e, if_true]
    rw [still _ (by exact h)]
    exact ⟨_, _, _, rfl⟩
  · simp only [e, if_false]
    split <;> (rw [still _ (by exact h)]; exact ⟨_, _, _, rfl⟩)

/-- The record after an evaluation away from rest is the one that the state gives. -/
theorem State.evaluateGrant_shown {want : Nat} {s : State} (h : s.rtb.atRest = false) :
    (s.evaluateGrant want).recordShown := by
  obtain ⟨a, w, d, e⟩ := State.evaluateGrant_moving (want := want) h
  have again : s.grantRecord (s.grantSpeed want) = s.grantRecord want := by
    unfold State.grantRecord; simp only [s.grantSpeed_idem want]
  rw [e]
  by_cases k : s.grantRecord want = s.spm.grant
  · simp only [k, if_true]
    exact State.recordShown_of _ ((k.symm.trans again.symm).trans (congrArg s.grantRecord (congrArg GrantRecord.speed k)))
      ((congrArg s.grantSpeed (congrArg GrantRecord.speed k).symm).trans
        ((s.grantSpeed_idem want).trans (congrArg GrantRecord.speed k)))
  · simp only [k, if_false]
    exact State.recordShown_of _ again.symm (s.grantSpeed_idem want)

end Sys2Proof.Machine
end

