-- ==== Sys2Proof/Laws/State.lean ====
section
/-! SUPPORT. For each update and each shared operation of the model, the parts of the state it leaves as they were. -/

namespace Sys2Proof.Machine

/-! ### Time, notices and ports -/

@[simp] theorem State.elapse_time (n : Nat) (s : State) : (s.elapse n).time = s.time + n := rfl

@[simp] theorem State.atInstant_time (t : Nat) (s : State) : (s.atInstant t).time = s.time + s.ahead t := rfl

@[simp] theorem State.elapse_frame (n : Nat) (s : State) :
    (s.elapse n).rst = s.rst ∧ (s.elapse n).startUp = s.startUp ∧ (s.elapse n).strikePin = s.strikePin ∧
    (s.elapse n).lidPin = s.lidPin ∧ (s.elapse n).rtb = s.rtb ∧ (s.elapse n).csm = s.csm ∧
    (s.elapse n).ibe = s.ibe ∧ (s.elapse n).rbt = s.rbt ∧ (s.elapse n).spm = s.spm ∧ (s.elapse n).ric = s.ric ∧
    (s.elapse n).tmo = s.tmo ∧ (s.elapse n).lkp = s.lkp ∧ (s.elapse n).cls = s.cls ∧
    (s.elapse n).pending = s.pending :=
  by and_intros <;> rfl

@[simp] theorem State.atInstant_frame (t : Nat) (s : State) :
    (s.atInstant t).rst = s.rst ∧ (s.atInstant t).startUp = s.startUp ∧ (s.atInstant t).strikePin = s.strikePin ∧
    (s.atInstant t).lidPin = s.lidPin ∧ (s.atInstant t).rtb = s.rtb ∧ (s.atInstant t).csm = s.csm ∧
    (s.atInstant t).ibe = s.ibe ∧ (s.atInstant t).rbt = s.rbt ∧ (s.atInstant t).spm = s.spm ∧
    (s.atInstant t).ric = s.ric ∧ (s.atInstant t).tmo = s.tmo ∧ (s.atInstant t).lkp = s.lkp ∧
    (s.atInstant t).cls = s.cls ∧ (s.atInstant t).pending = s.pending :=
  by simp [State.atInstant]

@[simp] theorem State.post_frame (n : Notice) (s : State) :
    (s.post n).time = s.time ∧ (s.post n).rst = s.rst ∧ (s.post n).startUp = s.startUp ∧
    (s.post n).strikePin = s.strikePin ∧ (s.post n).lidPin = s.lidPin ∧ (s.post n).rtb = s.rtb ∧
    (s.post n).csm = s.csm ∧ (s.post n).ibe = s.ibe ∧ (s.post n).rbt = s.rbt ∧ (s.post n).spm = s.spm ∧
    (s.post n).ric = s.ric ∧ (s.post n).tmo = s.tmo ∧ (s.post n).cls = s.cls ∧ (s.post n).pending = s.pending :=
  by and_intros <;> rfl

@[simp] theorem State.setPort_frame (p : Port) (v : PortState) (s : State) :
    (s.setPort p v).time = s.time ∧ (s.setPort p v).rst = s.rst ∧ (s.setPort p v).startUp = s.startUp ∧
    (s.setPort p v).strikePin = s.strikePin ∧ (s.setPort p v).lidPin = s.lidPin ∧ (s.setPort p v).rtb = s.rtb ∧
    (s.setPort p v).csm = s.csm ∧ (s.setPort p v).ibe = s.ibe ∧ (s.setPort p v).rbt = s.rbt ∧
    (s.setPort p v).spm = s.spm ∧ (s.setPort p v).ric = s.ric ∧ (s.setPort p v).tmo = s.tmo ∧
    (s.setPort p v).cls = s.cls ∧ (s.setPort p v).pending = s.pending :=
  by cases p <;> (and_intros <;> rfl)

@[simp] theorem State.clearRx_frame (p : Port) (s : State) :
    (s.clearRx p).time = s.time ∧ (s.clearRx p).rst = s.rst ∧ (s.clearRx p).startUp = s.startUp ∧
    (s.clearRx p).strikePin = s.strikePin ∧ (s.clearRx p).lidPin = s.lidPin ∧ (s.clearRx p).rtb = s.rtb ∧
    (s.clearRx p).csm = s.csm ∧ (s.clearRx p).ibe = s.ibe ∧ (s.clearRx p).rbt = s.rbt ∧
    (s.clearRx p).spm = s.spm ∧ (s.clearRx p).ric = s.ric ∧ (s.clearRx p).tmo = s.tmo ∧
    (s.clearRx p).cls = s.cls ∧ (s.clearRx p).pending = s.pending :=
  by simp [State.clearRx]

@[simp] theorem State.setRx_frame (p : Port) (r : Rx) (s : State) :
    (s.setRx p r).time = s.time ∧ (s.setRx p r).rst = s.rst ∧ (s.setRx p r).startUp = s.startUp ∧
    (s.setRx p r).strikePin = s.strikePin ∧ (s.setRx p r).lidPin = s.lidPin ∧ (s.setRx p r).rtb = s.rtb ∧
    (s.setRx p r).csm = s.csm ∧ (s.setRx p r).ibe = s.ibe ∧ (s.setRx p r).rbt = s.rbt ∧
    (s.setRx p r).spm = s.spm ∧ (s.setRx p r).ric = s.ric ∧ (s.setRx p r).tmo = s.tmo ∧
    (s.setRx p r).cls = s.cls ∧ (s.setRx p r).pending = s.pending :=
  by simp [State.setRx]

/-! ### The balance ring -/

@[simp] theorem State.credit_frame (mg : Nat) (s : State) :
    (s.credit mg).time = s.time ∧ (s.credit mg).rst = s.rst ∧ (s.credit mg).startUp = s.startUp ∧
    (s.credit mg).strikePin = s.strikePin ∧ (s.credit mg).lidPin = s.lidPin ∧ (s.credit mg).rtb = s.rtb ∧
    (s.credit mg).csm = s.csm ∧ (s.credit mg).ibe = s.ibe ∧ (s.credit mg).rbt = s.rbt ∧
    (s.credit mg).spm = s.spm ∧ (s.credit mg).tmo = s.tmo ∧ (s.credit mg).lkp = s.lkp ∧
    (s.credit mg).cls = s.cls ∧ (s.credit mg).pending = s.pending :=
  by
  unfold State.credit
  split
  · simp
  · split <;> simp

@[simp] theorem State.cutOpening_frame (s : State) :
    (s.cutOpening).time = s.time ∧ (s.cutOpening).rst = s.rst ∧ (s.cutOpening).startUp = s.startUp ∧
    (s.cutOpening).strikePin = s.strikePin ∧ (s.cutOpening).lidPin = s.lidPin ∧ (s.cutOpening).rtb = s.rtb ∧
    (s.cutOpening).csm = s.csm ∧ (s.cutOpening).ibe = s.ibe ∧ (s.cutOpening).rbt = s.rbt ∧
    (s.cutOpening).spm = s.spm ∧ (s.cutOpening).tmo = s.tmo ∧ (s.cutOpening).lkp = s.lkp ∧
    (s.cutOpening).cls = s.cls ∧ (s.cutOpening).pending = s.pending :=
  by
  unfold State.cutOpening
  split <;> simp

@[simp] theorem State.putBack_frame (s : State) :
    (s.putBack).time = s.time ∧ (s.putBack).rst = s.rst ∧ (s.putBack).startUp = s.startUp ∧
    (s.putBack).strikePin = s.strikePin ∧ (s.putBack).lidPin = s.lidPin ∧ (s.putBack).rtb = s.rtb ∧
    (s.putBack).csm = s.csm ∧ (s.putBack).ibe = s.ibe ∧ (s.putBack).rbt = s.rbt ∧ (s.putBack).spm = s.spm ∧
    (s.putBack).tmo = s.tmo ∧ (s.putBack).lkp = s.lkp ∧ (s.putBack).cls = s.cls ∧
    (s.putBack).pending = s.pending :=
  by
  unfold State.putBack
  split
  · simp
  · split <;> simp

@[simp] theorem State.refreeze_frame (s : State) :
    (s.refreeze).time = s.time ∧ (s.refreeze).rst = s.rst ∧ (s.refreeze).startUp = s.startUp ∧
    (s.refreeze).strikePin = s.strikePin ∧ (s.refreeze).lidPin = s.lidPin ∧ (s.refreeze).rtb = s.rtb ∧
    (s.refreeze).csm = s.csm ∧ (s.refreeze).ibe = s.ibe ∧ (s.refreeze).rbt = s.rbt ∧ (s.refreeze).spm = s.spm ∧
    (s.refreeze).tmo = s.tmo ∧ (s.refreeze).lkp = s.lkp ∧ (s.refreeze).cls = s.cls ∧
    (s.refreeze).pending = s.pending :=
  by
  unfold State.refreeze
  split
  · split <;> simp
  · split <;> simp

@[simp] theorem State.cancelOrders_frame (s : State) :
    (s.cancelOrders).time = s.time ∧ (s.cancelOrders).rst = s.rst ∧ (s.cancelOrders).startUp = s.startUp ∧
    (s.cancelOrders).strikePin = s.strikePin ∧ (s.cancelOrders).lidPin = s.lidPin ∧
    (s.cancelOrders).rtb = s.rtb ∧ (s.cancelOrders).csm = s.csm ∧ (s.cancelOrders).ibe = s.ibe ∧
    (s.cancelOrders).rbt = s.rbt ∧ (s.cancelOrders).spm = s.spm ∧ (s.cancelOrders).tmo = s.tmo ∧
    (s.cancelOrders).lkp = s.lkp ∧ (s.cancelOrders).cls = s.cls ∧ (s.cancelOrders).pending = s.pending :=
  by simp [State.cancelOrders]

@[simp] theorem State.newWindows_frame (a p : Nat) (s : State) :
    (s.newWindows a p).time = s.time ∧ (s.newWindows a p).rst = s.rst ∧ (s.newWindows a p).startUp = s.startUp ∧
    (s.newWindows a p).strikePin = s.strikePin ∧ (s.newWindows a p).lidPin = s.lidPin ∧
    (s.newWindows a p).rtb = s.rtb ∧ (s.newWindows a p).csm = s.csm ∧ (s.newWindows a p).ibe = s.ibe ∧
    (s.newWindows a p).rbt = s.rbt ∧ (s.newWindows a p).spm = s.spm ∧ (s.newWindows a p).tmo = s.tmo ∧
    (s.newWindows a p).lkp = s.lkp ∧ (s.newWindows a p).cls = s.cls ∧ (s.newWindows a p).pending = s.pending :=
  by and_intros <;> rfl

@[simp] theorem State.dropWindows_frame (s : State) :
    (s.dropWindows).time = s.time ∧ (s.dropWindows).rst = s.rst ∧ (s.dropWindows).startUp = s.startUp ∧
    (s.dropWindows).strikePin = s.strikePin ∧ (s.dropWindows).lidPin = s.lidPin ∧ (s.dropWindows).rtb = s.rtb ∧
    (s.dropWindows).csm = s.csm ∧ (s.dropWindows).ibe = s.ibe ∧ (s.dropWindows).rbt = s.rbt ∧
    (s.dropWindows).spm = s.spm ∧ (s.dropWindows).tmo = s.tmo ∧ (s.dropWindows).lkp = s.lkp ∧
    (s.dropWindows).cls = s.cls ∧ (s.dropWindows).pending = s.pending :=
  by and_intros <;> rfl

@[simp] theorem State.bleedTimers_frame (s : State) :
    (s.bleedTimers).time = s.time ∧ (s.bleedTimers).rst = s.rst ∧ (s.bleedTimers).startUp = s.startUp ∧
    (s.bleedTimers).strikePin = s.strikePin ∧ (s.bleedTimers).lidPin = s.lidPin ∧ (s.bleedTimers).rtb = s.rtb ∧
    (s.bleedTimers).csm = s.csm ∧ (s.bleedTimers).ibe = s.ibe ∧ (s.bleedTimers).rbt = s.rbt ∧
    (s.bleedTimers).spm = s.spm ∧ (s.bleedTimers).tmo = s.tmo ∧ (s.bleedTimers).lkp = s.lkp ∧
    (s.bleedTimers).cls = s.cls ∧ (s.bleedTimers).pending = s.pending :=
  by
  unfold State.bleedTimers
  split <;> simp

@[simp] theorem State.bleedTick_frame (s : State) :
    (s.bleedTick).time = s.time ∧ (s.bleedTick).rst = s.rst ∧ (s.bleedTick).startUp = s.startUp ∧
    (s.bleedTick).strikePin = s.strikePin ∧ (s.bleedTick).lidPin = s.lidPin ∧ (s.bleedTick).rtb = s.rtb ∧
    (s.bleedTick).csm = s.csm ∧ (s.bleedTick).ibe = s.ibe ∧ (s.bleedTick).rbt = s.rbt ∧
    (s.bleedTick).spm = s.spm ∧ (s.bleedTick).tmo = s.tmo ∧ (s.bleedTick).lkp = s.lkp ∧
    (s.bleedTick).cls = s.cls ∧ (s.bleedTick).pending = s.pending :=
  by and_intros <;> rfl

@[simp] theorem State.chambersKnown_frame (s : State) :
    (s.chambersKnown).time = s.time ∧ (s.chambersKnown).rst = s.rst ∧ (s.chambersKnown).startUp = s.startUp ∧
    (s.chambersKnown).strikePin = s.strikePin ∧ (s.chambersKnown).lidPin = s.lidPin ∧
    (s.chambersKnown).rtb = s.rtb ∧ (s.chambersKnown).csm = s.csm ∧ (s.chambersKnown).ibe = s.ibe ∧
    (s.chambersKnown).rbt = s.rbt ∧ (s.chambersKnown).spm = s.spm ∧ (s.chambersKnown).tmo = s.tmo ∧
    (s.chambersKnown).lkp = s.lkp ∧ (s.chambersKnown).cls = s.cls ∧ (s.chambersKnown).pending = s.pending :=
  by and_intros <;> rfl

@[simp] theorem State.closeOpening_frame (o : Opening) (s : State) :
    (s.closeOpening o).time = s.time ∧ (s.closeOpening o).rst = s.rst ∧ (s.closeOpening o).startUp = s.startUp ∧
    (s.closeOpening o).strikePin = s.strikePin ∧ (s.closeOpening o).lidPin = s.lidPin ∧
    (s.closeOpening o).rtb = s.rtb ∧ (s.closeOpening o).csm = s.csm ∧ (s.closeOpening o).ibe = s.ibe ∧
    (s.closeOpening o).rbt = s.rbt ∧ (s.closeOpening o).spm = s.spm ∧ (s.closeOpening o).tmo = s.tmo ∧
    (s.closeOpening o).lkp = s.lkp ∧ (s.closeOpening o).cls = s.cls ∧ (s.closeOpening o).pending = s.pending :=
  by simp [State.closeOpening]

@[simp] theorem State.enqueue_frame (o : Order) (s : State) :
    (s.enqueue o).time = s.time ∧ (s.enqueue o).rst = s.rst ∧ (s.enqueue o).startUp = s.startUp ∧
    (s.enqueue o).strikePin = s.strikePin ∧ (s.enqueue o).lidPin = s.lidPin ∧ (s.enqueue o).rtb = s.rtb ∧
    (s.enqueue o).csm = s.csm ∧ (s.enqueue o).ibe = s.ibe ∧ (s.enqueue o).rbt = s.rbt ∧
    (s.enqueue o).spm = s.spm ∧ (s.enqueue o).tmo = s.tmo ∧ (s.enqueue o).lkp = s.lkp ∧
    (s.enqueue o).cls = s.cls ∧ (s.enqueue o).pending = s.pending :=
  by and_intros <;> rfl

@[simp] theorem State.placeMass_frame (j : Fin 4) (m : Nat) (s : State) :
    (s.placeMass j m).time = s.time ∧ (s.placeMass j m).rst = s.rst ∧ (s.placeMass j m).startUp = s.startUp ∧
    (s.placeMass j m).strikePin = s.strikePin ∧ (s.placeMass j m).lidPin = s.lidPin ∧
    (s.placeMass j m).rtb = s.rtb ∧ (s.placeMass j m).csm = s.csm ∧ (s.placeMass j m).ibe = s.ibe ∧
    (s.placeMass j m).rbt = s.rbt ∧ (s.placeMass j m).spm = s.spm ∧ (s.placeMass j m).tmo = s.tmo ∧
    (s.placeMass j m).lkp = s.lkp ∧ (s.placeMass j m).cls = s.cls ∧ (s.placeMass j m).pending = s.pending :=
  by
  unfold State.placeMass
  dsimp only
  split <;> simp

@[simp] theorem State.placeMassIfFree_frame (j : Fin 4) (m : Nat) (s : State) :
    (s.placeMassIfFree j m).time = s.time ∧ (s.placeMassIfFree j m).rst = s.rst ∧
    (s.placeMassIfFree j m).startUp = s.startUp ∧ (s.placeMassIfFree j m).strikePin = s.strikePin ∧
    (s.placeMassIfFree j m).lidPin = s.lidPin ∧ (s.placeMassIfFree j m).rtb = s.rtb ∧
    (s.placeMassIfFree j m).csm = s.csm ∧ (s.placeMassIfFree j m).ibe = s.ibe ∧
    (s.placeMassIfFree j m).rbt = s.rbt ∧ (s.placeMassIfFree j m).spm = s.spm ∧
    (s.placeMassIfFree j m).tmo = s.tmo ∧ (s.placeMassIfFree j m).lkp = s.lkp ∧
    (s.placeMassIfFree j m).cls = s.cls ∧ (s.placeMassIfFree j m).pending = s.pending :=
  by
  unfold State.placeMassIfFree
  split <;> simp

/-! ### The imbalance estimator -/

@[simp] theorem State.postFor_frame (p : Port) (n : Notice) (s : State) :
    (s.postFor p n).time = s.time ∧ (s.postFor p n).rst = s.rst ∧ (s.postFor p n).startUp = s.startUp ∧
    (s.postFor p n).strikePin = s.strikePin ∧ (s.postFor p n).lidPin = s.lidPin ∧ (s.postFor p n).rtb = s.rtb ∧
    (s.postFor p n).csm = s.csm ∧ (s.postFor p n).ibe = s.ibe ∧ (s.postFor p n).rbt = s.rbt ∧
    (s.postFor p n).spm = s.spm ∧ (s.postFor p n).ric = s.ric ∧ (s.postFor p n).tmo = s.tmo ∧
    (s.postFor p n).cls = s.cls ∧ (s.postFor p n).pending = s.pending :=
  by cases p <;> simp [State.postFor]

@[simp] theorem State.latchReady_frame (k : DelayedKey) (p : Port) (r : SnapshotResult) (s : State) :
    (s.latchReady k p r).time = s.time ∧ (s.latchReady k p r).rst = s.rst ∧
    (s.latchReady k p r).startUp = s.startUp ∧ (s.latchReady k p r).strikePin = s.strikePin ∧
    (s.latchReady k p r).lidPin = s.lidPin ∧ (s.latchReady k p r).rtb = s.rtb ∧
    (s.latchReady k p r).csm = s.csm ∧ (s.latchReady k p r).rbt = s.rbt ∧ (s.latchReady k p r).spm = s.spm ∧
    (s.latchReady k p r).ric = s.ric ∧ (s.latchReady k p r).tmo = s.tmo ∧ (s.latchReady k p r).cls = s.cls ∧
    (s.latchReady k p r).pending = s.pending :=
  by simp [State.latchReady]

@[simp] theorem State.testLatch_frame (s : State) :
    (s.testLatch).time = s.time ∧ (s.testLatch).rst = s.rst ∧ (s.testLatch).startUp = s.startUp ∧
    (s.testLatch).strikePin = s.strikePin ∧ (s.testLatch).lidPin = s.lidPin ∧ (s.testLatch).rtb = s.rtb ∧
    (s.testLatch).csm = s.csm ∧ (s.testLatch).rbt = s.rbt ∧ (s.testLatch).spm = s.spm ∧
    (s.testLatch).ric = s.ric ∧ (s.testLatch).tmo = s.tmo ∧ (s.testLatch).cls = s.cls ∧
    (s.testLatch).pending = s.pending :=
  by
  unfold State.testLatch
  split
  · split <;> simp
  · simp
  · simp

@[simp] theorem State.discardLatch_frame (s : State) :
    (s.discardLatch).time = s.time ∧ (s.discardLatch).rst = s.rst ∧ (s.discardLatch).startUp = s.startUp ∧
    (s.discardLatch).strikePin = s.strikePin ∧ (s.discardLatch).lidPin = s.lidPin ∧
    (s.discardLatch).rtb = s.rtb ∧ (s.discardLatch).csm = s.csm ∧ (s.discardLatch).rbt = s.rbt ∧
    (s.discardLatch).spm = s.spm ∧ (s.discardLatch).ric = s.ric ∧ (s.discardLatch).tmo = s.tmo ∧
    (s.discardLatch).cls = s.cls ∧ (s.discardLatch).pending = s.pending :=
  by
  unfold State.discardLatch
  split <;> simp

@[simp] theorem State.ordersTaken_frame (s : State) :
    (s.ordersTaken).time = s.time ∧ (s.ordersTaken).rst = s.rst ∧ (s.ordersTaken).startUp = s.startUp ∧
    (s.ordersTaken).strikePin = s.strikePin ∧ (s.ordersTaken).lidPin = s.lidPin ∧ (s.ordersTaken).rtb = s.rtb ∧
    (s.ordersTaken).csm = s.csm ∧ (s.ordersTaken).rbt = s.rbt ∧ (s.ordersTaken).spm = s.spm ∧
    (s.ordersTaken).ric = s.ric ∧ (s.ordersTaken).tmo = s.tmo ∧ (s.ordersTaken).cls = s.cls ∧
    (s.ordersTaken).pending = s.pending :=
  by simp [State.ordersTaken]

@[simp] theorem State.validRevolution_frame (c : Completion) (s : State) :
    (s.validRevolution c).time = s.time ∧ (s.validRevolution c).rst = s.rst ∧
    (s.validRevolution c).startUp = s.startUp ∧ (s.validRevolution c).strikePin = s.strikePin ∧
    (s.validRevolution c).lidPin = s.lidPin ∧ (s.validRevolution c).rtb = s.rtb ∧
    (s.validRevolution c).csm = s.csm ∧ (s.validRevolution c).rbt = s.rbt ∧ (s.validRevolution c).spm = s.spm ∧
    (s.validRevolution c).ric = s.ric ∧ (s.validRevolution c).tmo = s.tmo ∧ (s.validRevolution c).lkp = s.lkp ∧
    (s.validRevolution c).cls = s.cls ∧ (s.validRevolution c).pending = s.pending :=
  by and_intros <;> rfl

@[simp] theorem State.recordULast_frame (s : State) :
    (s.recordULast).time = s.time ∧ (s.recordULast).rst = s.rst ∧ (s.recordULast).startUp = s.startUp ∧
    (s.recordULast).strikePin = s.strikePin ∧ (s.recordULast).lidPin = s.lidPin ∧ (s.recordULast).rtb = s.rtb ∧
    (s.recordULast).csm = s.csm ∧ (s.recordULast).rbt = s.rbt ∧ (s.recordULast).spm = s.spm ∧
    (s.recordULast).ric = s.ric ∧ (s.recordULast).tmo = s.tmo ∧ (s.recordULast).lkp = s.lkp ∧
    (s.recordULast).cls = s.cls ∧ (s.recordULast).pending = s.pending :=
  by
  unfold State.recordULast
  split <;> simp

@[simp] theorem State.countRingQuiet_frame (s : State) :
    (s.countRingQuiet).time = s.time ∧ (s.countRingQuiet).rst = s.rst ∧ (s.countRingQuiet).startUp = s.startUp ∧
    (s.countRingQuiet).strikePin = s.strikePin ∧ (s.countRingQuiet).lidPin = s.lidPin ∧
    (s.countRingQuiet).rtb = s.rtb ∧ (s.countRingQuiet).csm = s.csm ∧ (s.countRingQuiet).rbt = s.rbt ∧
    (s.countRingQuiet).spm = s.spm ∧ (s.countRingQuiet).ric = s.ric ∧ (s.countRingQuiet).tmo = s.tmo ∧
    (s.countRingQuiet).lkp = s.lkp ∧ (s.countRingQuiet).cls = s.cls ∧ (s.countRingQuiet).pending = s.pending :=
  by and_intros <;> rfl

@[simp] theorem State.invalidRevolution_frame (c : Completion) (s : State) :
    (s.invalidRevolution c).time = s.time ∧ (s.invalidRevolution c).rst = s.rst ∧
    (s.invalidRevolution c).startUp = s.startUp ∧ (s.invalidRevolution c).strikePin = s.strikePin ∧
    (s.invalidRevolution c).lidPin = s.lidPin ∧ (s.invalidRevolution c).rtb = s.rtb ∧
    (s.invalidRevolution c).csm = s.csm ∧ (s.invalidRevolution c).rbt = s.rbt ∧
    (s.invalidRevolution c).spm = s.spm ∧ (s.invalidRevolution c).ric = s.ric ∧
    (s.invalidRevolution c).tmo = s.tmo ∧ (s.invalidRevolution c).lkp = s.lkp ∧
    (s.invalidRevolution c).cls = s.cls ∧ (s.invalidRevolution c).pending = s.pending :=
  by and_intros <;> rfl

@[simp] theorem State.idleEstimate_frame (s : State) :
    (s.idleEstimate).time = s.time ∧ (s.idleEstimate).rst = s.rst ∧ (s.idleEstimate).startUp = s.startUp ∧
    (s.idleEstimate).strikePin = s.strikePin ∧ (s.idleEstimate).lidPin = s.lidPin ∧
    (s.idleEstimate).rtb = s.rtb ∧ (s.idleEstimate).csm = s.csm ∧ (s.idleEstimate).rbt = s.rbt ∧
    (s.idleEstimate).spm = s.spm ∧ (s.idleEstimate).ric = s.ric ∧ (s.idleEstimate).tmo = s.tmo ∧
    (s.idleEstimate).lkp = s.lkp ∧ (s.idleEstimate).cls = s.cls ∧ (s.idleEstimate).pending = s.pending :=
  by and_intros <;> rfl

@[simp] theorem State.estimate_frame (c : Completion) (s : State) :
    (s.estimate c).time = s.time ∧ (s.estimate c).rst = s.rst ∧ (s.estimate c).startUp = s.startUp ∧
    (s.estimate c).strikePin = s.strikePin ∧ (s.estimate c).lidPin = s.lidPin ∧ (s.estimate c).rtb = s.rtb ∧
    (s.estimate c).csm = s.csm ∧ (s.estimate c).rbt = s.rbt ∧ (s.estimate c).spm = s.spm ∧
    (s.estimate c).ric = s.ric ∧ (s.estimate c).tmo = s.tmo ∧ (s.estimate c).cls = s.cls ∧
    (s.estimate c).pending = s.pending :=
  by
  unfold State.estimate
  split
  · simp
  · split
    · simp
    · split <;> simp

@[simp] theorem State.restartSmoothing_frame (s : State) :
    (s.restartSmoothing).time = s.time ∧ (s.restartSmoothing).rst = s.rst ∧
    (s.restartSmoothing).startUp = s.startUp ∧ (s.restartSmoothing).strikePin = s.strikePin ∧
    (s.restartSmoothing).lidPin = s.lidPin ∧ (s.restartSmoothing).rtb = s.rtb ∧
    (s.restartSmoothing).csm = s.csm ∧ (s.restartSmoothing).rbt = s.rbt ∧ (s.restartSmoothing).spm = s.spm ∧
    (s.restartSmoothing).ric = s.ric ∧ (s.restartSmoothing).tmo = s.tmo ∧ (s.restartSmoothing).lkp = s.lkp ∧
    (s.restartSmoothing).cls = s.cls ∧ (s.restartSmoothing).pending = s.pending :=
  by and_intros <;> rfl

@[simp] theorem State.estimatorStart_frame (s : State) :
    (s.estimatorStart).time = s.time ∧ (s.estimatorStart).rst = s.rst ∧ (s.estimatorStart).startUp = s.startUp ∧
    (s.estimatorStart).strikePin = s.strikePin ∧ (s.estimatorStart).lidPin = s.lidPin ∧
    (s.estimatorStart).rtb = s.rtb ∧ (s.estimatorStart).csm = s.csm ∧ (s.estimatorStart).rbt = s.rbt ∧
    (s.estimatorStart).spm = s.spm ∧ (s.estimatorStart).ric = s.ric ∧ (s.estimatorStart).tmo = s.tmo ∧
    (s.estimatorStart).lkp = s.lkp ∧ (s.estimatorStart).cls = s.cls ∧ (s.estimatorStart).pending = s.pending :=
  by
  unfold State.estimatorStart
  dsimp only
  split <;> simp

/-! ### The plan and the grant -/

@[simp] theorem State.takeUpdate_spm (s : State) :
    s.takeUpdate.spm = { s.spm with update := s.estimateUpdate } := rfl

@[simp] theorem State.takeUpdate_frame (s : State) :
    (s.takeUpdate).time = s.time ∧ (s.takeUpdate).rst = s.rst ∧ (s.takeUpdate).startUp = s.startUp ∧
    (s.takeUpdate).strikePin = s.strikePin ∧ (s.takeUpdate).lidPin = s.lidPin ∧ (s.takeUpdate).rtb = s.rtb ∧
    (s.takeUpdate).csm = s.csm ∧ (s.takeUpdate).ibe = s.ibe ∧ (s.takeUpdate).rbt = s.rbt ∧
    (s.takeUpdate).ric = s.ric ∧ (s.takeUpdate).tmo = s.tmo ∧ (s.takeUpdate).lkp = s.lkp ∧
    (s.takeUpdate).cls = s.cls ∧ (s.takeUpdate).pending = s.pending :=
  by and_intros <;> rfl

@[simp] theorem State.computeCeiling_frame (s : State) :
    (s.computeCeiling).time = s.time ∧ (s.computeCeiling).rst = s.rst ∧ (s.computeCeiling).startUp = s.startUp ∧
    (s.computeCeiling).strikePin = s.strikePin ∧ (s.computeCeiling).lidPin = s.lidPin ∧
    (s.computeCeiling).rtb = s.rtb ∧ (s.computeCeiling).csm = s.csm ∧ (s.computeCeiling).ibe = s.ibe ∧
    (s.computeCeiling).rbt = s.rbt ∧ (s.computeCeiling).ric = s.ric ∧ (s.computeCeiling).tmo = s.tmo ∧
    (s.computeCeiling).lkp = s.lkp ∧ (s.computeCeiling).cls = s.cls ∧ (s.computeCeiling).pending = s.pending :=
  by and_intros <;> rfl

@[simp] theorem State.updateActive_frame (f : Plateau → Plateau) (s : State) :
    (s.updateActive f).time = s.time ∧ (s.updateActive f).rst = s.rst ∧ (s.updateActive f).startUp = s.startUp ∧
    (s.updateActive f).strikePin = s.strikePin ∧ (s.updateActive f).lidPin = s.lidPin ∧
    (s.updateActive f).rtb = s.rtb ∧ (s.updateActive f).csm = s.csm ∧ (s.updateActive f).ibe = s.ibe ∧
    (s.updateActive f).rbt = s.rbt ∧ (s.updateActive f).ric = s.ric ∧ (s.updateActive f).tmo = s.tmo ∧
    (s.updateActive f).lkp = s.lkp ∧ (s.updateActive f).cls = s.cls ∧ (s.updateActive f).pending = s.pending :=
  by and_intros <;> rfl

@[simp] theorem State.syncDwell_frame (s : State) :
    (s.syncDwell).time = s.time ∧ (s.syncDwell).rst = s.rst ∧ (s.syncDwell).startUp = s.startUp ∧
    (s.syncDwell).strikePin = s.strikePin ∧ (s.syncDwell).lidPin = s.lidPin ∧ (s.syncDwell).rtb = s.rtb ∧
    (s.syncDwell).csm = s.csm ∧ (s.syncDwell).ibe = s.ibe ∧ (s.syncDwell).rbt = s.rbt ∧
    (s.syncDwell).ric = s.ric ∧ (s.syncDwell).tmo = s.tmo ∧ (s.syncDwell).lkp = s.lkp ∧
    (s.syncDwell).cls = s.cls ∧ (s.syncDwell).pending = s.pending :=
  by and_intros <;> rfl

@[simp] theorem State.arriveAtZero_frame (s : State) :
    (s.arriveAtZero).time = s.time ∧ (s.arriveAtZero).rst = s.rst ∧ (s.arriveAtZero).startUp = s.startUp ∧
    (s.arriveAtZero).strikePin = s.strikePin ∧ (s.arriveAtZero).lidPin = s.lidPin ∧
    (s.arriveAtZero).rtb = s.rtb ∧ (s.arriveAtZero).csm = s.csm ∧ (s.arriveAtZero).ibe = s.ibe ∧
    (s.arriveAtZero).rbt = s.rbt ∧ (s.arriveAtZero).ric = s.ric ∧ (s.arriveAtZero).tmo = s.tmo ∧
    (s.arriveAtZero).lkp = s.lkp ∧ (s.arriveAtZero).cls = s.cls ∧ (s.arriveAtZero).pending = s.pending :=
  by
  unfold State.arriveAtZero
  split <;> simp

@[simp] theorem State.speedChanged_frame (n : Nat) (s : State) :
    (s.speedChanged n).time = s.time ∧ (s.speedChanged n).rst = s.rst ∧ (s.speedChanged n).startUp = s.startUp ∧
    (s.speedChanged n).strikePin = s.strikePin ∧ (s.speedChanged n).lidPin = s.lidPin ∧
    (s.speedChanged n).rtb = s.rtb ∧ (s.speedChanged n).csm = s.csm ∧ (s.speedChanged n).ibe = s.ibe ∧
    (s.speedChanged n).rbt = s.rbt ∧ (s.speedChanged n).ric = s.ric ∧ (s.speedChanged n).tmo = s.tmo ∧
    (s.speedChanged n).lkp = s.lkp ∧ (s.speedChanged n).cls = s.cls ∧ (s.speedChanged n).pending = s.pending :=
  by
  unfold State.speedChanged
  split <;> simp

@[simp] theorem State.putGrant_frame (g : GrantRecord) (s : State) :
    (s.putGrant g).time = s.time ∧ (s.putGrant g).rst = s.rst ∧ (s.putGrant g).startUp = s.startUp ∧
    (s.putGrant g).strikePin = s.strikePin ∧ (s.putGrant g).lidPin = s.lidPin ∧ (s.putGrant g).rtb = s.rtb ∧
    (s.putGrant g).csm = s.csm ∧ (s.putGrant g).ibe = s.ibe ∧ (s.putGrant g).rbt = s.rbt ∧
    (s.putGrant g).ric = s.ric ∧ (s.putGrant g).tmo = s.tmo ∧ (s.putGrant g).cls = s.cls ∧
    (s.putGrant g).pending = s.pending :=
  by
  unfold State.putGrant
  split <;> simp

@[simp] theorem State.evaluateGrant_frame (n : Nat) (s : State) :
    (s.evaluateGrant n).time = s.time ∧ (s.evaluateGrant n).rst = s.rst ∧
    (s.evaluateGrant n).startUp = s.startUp ∧ (s.evaluateGrant n).strikePin = s.strikePin ∧
    (s.evaluateGrant n).lidPin = s.lidPin ∧ (s.evaluateGrant n).rtb = s.rtb ∧ (s.evaluateGrant n).csm = s.csm ∧
    (s.evaluateGrant n).ibe = s.ibe ∧ (s.evaluateGrant n).rbt = s.rbt ∧ (s.evaluateGrant n).ric = s.ric ∧
    (s.evaluateGrant n).tmo = s.tmo ∧ (s.evaluateGrant n).cls = s.cls ∧
    (s.evaluateGrant n).pending = s.pending :=
  by simp [State.evaluateGrant]

@[simp] theorem State.refreshGrant_frame (s : State) :
    (s.refreshGrant).time = s.time ∧ (s.refreshGrant).rst = s.rst ∧ (s.refreshGrant).startUp = s.startUp ∧
    (s.refreshGrant).strikePin = s.strikePin ∧ (s.refreshGrant).lidPin = s.lidPin ∧
    (s.refreshGrant).rtb = s.rtb ∧ (s.refreshGrant).csm = s.csm ∧ (s.refreshGrant).ibe = s.ibe ∧
    (s.refreshGrant).rbt = s.rbt ∧ (s.refreshGrant).ric = s.ric ∧ (s.refreshGrant).tmo = s.tmo ∧
    (s.refreshGrant).cls = s.cls ∧ (s.refreshGrant).pending = s.pending :=
  by simp [State.refreshGrant]

@[simp] theorem State.pausePlan_frame (r : PauseReason) (s : State) :
    (s.pausePlan r).time = s.time ∧ (s.pausePlan r).rst = s.rst ∧ (s.pausePlan r).startUp = s.startUp ∧
    (s.pausePlan r).strikePin = s.strikePin ∧ (s.pausePlan r).lidPin = s.lidPin ∧ (s.pausePlan r).rtb = s.rtb ∧
    (s.pausePlan r).csm = s.csm ∧ (s.pausePlan r).ibe = s.ibe ∧ (s.pausePlan r).rbt = s.rbt ∧
    (s.pausePlan r).ric = s.ric ∧ (s.pausePlan r).tmo = s.tmo ∧ (s.pausePlan r).cls = s.cls ∧
    (s.pausePlan r).pending = s.pending :=
  by and_intros <;> rfl

@[simp] theorem State.rebalance_frame (s : State) :
    (s.rebalance).time = s.time ∧ (s.rebalance).rst = s.rst ∧ (s.rebalance).startUp = s.startUp ∧
    (s.rebalance).strikePin = s.strikePin ∧ (s.rebalance).lidPin = s.lidPin ∧ (s.rebalance).rtb = s.rtb ∧
    (s.rebalance).csm = s.csm ∧ (s.rebalance).ibe = s.ibe ∧ (s.rebalance).rbt = s.rbt ∧
    (s.rebalance).ric = s.ric ∧ (s.rebalance).tmo = s.tmo ∧ (s.rebalance).cls = s.cls ∧
    (s.rebalance).pending = s.pending :=
  by simp [State.rebalance]

@[simp] theorem State.derive_frame (k : DerivationKind) (s : State) :
    (s.derive k).time = s.time ∧ (s.derive k).rst = s.rst ∧ (s.derive k).startUp = s.startUp ∧
    (s.derive k).strikePin = s.strikePin ∧ (s.derive k).lidPin = s.lidPin ∧ (s.derive k).rtb = s.rtb ∧
    (s.derive k).csm = s.csm ∧ (s.derive k).ibe = s.ibe ∧ (s.derive k).rbt = s.rbt ∧ (s.derive k).ric = s.ric ∧
    (s.derive k).tmo = s.tmo ∧ (s.derive k).cls = s.cls ∧ (s.derive k).pending = s.pending :=
  by
  unfold State.derive
  split
  · dsimp only
    split
    · simp
    · cases k <;> simp
  · simp

@[simp] theorem State.ceilingAndGrant_frame (s : State) :
    (s.ceilingAndGrant).time = s.time ∧ (s.ceilingAndGrant).rst = s.rst ∧
    (s.ceilingAndGrant).startUp = s.startUp ∧ (s.ceilingAndGrant).strikePin = s.strikePin ∧
    (s.ceilingAndGrant).lidPin = s.lidPin ∧ (s.ceilingAndGrant).rtb = s.rtb ∧ (s.ceilingAndGrant).csm = s.csm ∧
    (s.ceilingAndGrant).ibe = s.ibe ∧ (s.ceilingAndGrant).rbt = s.rbt ∧ (s.ceilingAndGrant).ric = s.ric ∧
    (s.ceilingAndGrant).tmo = s.tmo ∧ (s.ceilingAndGrant).cls = s.cls ∧
    (s.ceilingAndGrant).pending = s.pending :=
  by simp [State.ceilingAndGrant]

@[simp] theorem State.unforceGrant_frame (s : State) :
    (s.unforceGrant).time = s.time ∧ (s.unforceGrant).rst = s.rst ∧ (s.unforceGrant).startUp = s.startUp ∧
    (s.unforceGrant).strikePin = s.strikePin ∧ (s.unforceGrant).lidPin = s.lidPin ∧
    (s.unforceGrant).rtb = s.rtb ∧ (s.unforceGrant).csm = s.csm ∧ (s.unforceGrant).ibe = s.ibe ∧
    (s.unforceGrant).rbt = s.rbt ∧ (s.unforceGrant).ric = s.ric ∧ (s.unforceGrant).tmo = s.tmo ∧
    (s.unforceGrant).cls = s.cls ∧ (s.unforceGrant).pending = s.pending :=
  by
  unfold State.unforceGrant
  split <;> simp

@[simp] theorem State.completePlan_frame (s : State) :
    (s.completePlan).time = s.time ∧ (s.completePlan).rst = s.rst ∧ (s.completePlan).startUp = s.startUp ∧
    (s.completePlan).strikePin = s.strikePin ∧ (s.completePlan).lidPin = s.lidPin ∧
    (s.completePlan).rtb = s.rtb ∧ (s.completePlan).csm = s.csm ∧ (s.completePlan).ibe = s.ibe ∧
    (s.completePlan).rbt = s.rbt ∧ (s.completePlan).ric = s.ric ∧ (s.completePlan).tmo = s.tmo ∧
    (s.completePlan).cls = s.cls ∧ (s.completePlan).pending = s.pending :=
  by simp [State.completePlan]

@[simp] theorem State.activateNext_frame (s : State) :
    (s.activateNext).time = s.time ∧ (s.activateNext).rst = s.rst ∧ (s.activateNext).startUp = s.startUp ∧
    (s.activateNext).strikePin = s.strikePin ∧ (s.activateNext).lidPin = s.lidPin ∧
    (s.activateNext).rtb = s.rtb ∧ (s.activateNext).csm = s.csm ∧ (s.activateNext).ibe = s.ibe ∧
    (s.activateNext).rbt = s.rbt ∧ (s.activateNext).ric = s.ric ∧ (s.activateNext).tmo = s.tmo ∧
    (s.activateNext).cls = s.cls ∧ (s.activateNext).pending = s.pending :=
  by
  unfold State.activateNext
  split <;> simp

@[simp] theorem State.endActive_frame (e : PlateauState) (s : State) :
    (s.endActive e).time = s.time ∧ (s.endActive e).rst = s.rst ∧ (s.endActive e).startUp = s.startUp ∧
    (s.endActive e).strikePin = s.strikePin ∧ (s.endActive e).lidPin = s.lidPin ∧ (s.endActive e).rtb = s.rtb ∧
    (s.endActive e).csm = s.csm ∧ (s.endActive e).ibe = s.ibe ∧ (s.endActive e).rbt = s.rbt ∧
    (s.endActive e).ric = s.ric ∧ (s.endActive e).tmo = s.tmo ∧ (s.endActive e).cls = s.cls ∧
    (s.endActive e).pending = s.pending :=
  by simp [State.endActive]

@[simp] theorem State.testArrival_frame (c : Completion) (s : State) :
    (s.testArrival c).time = s.time ∧ (s.testArrival c).rst = s.rst ∧ (s.testArrival c).startUp = s.startUp ∧
    (s.testArrival c).strikePin = s.strikePin ∧ (s.testArrival c).lidPin = s.lidPin ∧
    (s.testArrival c).rtb = s.rtb ∧ (s.testArrival c).csm = s.csm ∧ (s.testArrival c).ibe = s.ibe ∧
    (s.testArrival c).rbt = s.rbt ∧ (s.testArrival c).ric = s.ric ∧ (s.testArrival c).tmo = s.tmo ∧
    (s.testArrival c).lkp = s.lkp ∧ (s.testArrival c).cls = s.cls ∧ (s.testArrival c).pending = s.pending :=
  by
  unfold State.testArrival
  dsimp only
  split
  · split
    · split <;> simp
    · simp
  · simp

@[simp] theorem State.testWindow_frame (s : State) :
    (s.testWindow).time = s.time ∧ (s.testWindow).rst = s.rst ∧ (s.testWindow).startUp = s.startUp ∧
    (s.testWindow).strikePin = s.strikePin ∧ (s.testWindow).lidPin = s.lidPin ∧ (s.testWindow).rtb = s.rtb ∧
    (s.testWindow).csm = s.csm ∧ (s.testWindow).ibe = s.ibe ∧ (s.testWindow).rbt = s.rbt ∧
    (s.testWindow).ric = s.ric ∧ (s.testWindow).tmo = s.tmo ∧ (s.testWindow).lkp = s.lkp ∧
    (s.testWindow).cls = s.cls ∧ (s.testWindow).pending = s.pending :=
  by and_intros <;> rfl

@[simp] theorem State.reaim_frame (s : State) :
    (s.reaim).time = s.time ∧ (s.reaim).rst = s.rst ∧ (s.reaim).startUp = s.startUp ∧
    (s.reaim).strikePin = s.strikePin ∧ (s.reaim).lidPin = s.lidPin ∧ (s.reaim).rtb = s.rtb ∧
    (s.reaim).csm = s.csm ∧ (s.reaim).ibe = s.ibe ∧ (s.reaim).rbt = s.rbt ∧ (s.reaim).ric = s.ric ∧
    (s.reaim).tmo = s.tmo ∧ (s.reaim).lkp = s.lkp ∧ (s.reaim).cls = s.cls ∧ (s.reaim).pending = s.pending :=
  by and_intros <;> rfl

/-! ### The band table -/

@[simp] theorem State.withBands_frame (bs : List Band) (s : State) :
    (s.withBands bs).time = s.time ∧ (s.withBands bs).rst = s.rst ∧ (s.withBands bs).startUp = s.startUp ∧
    (s.withBands bs).strikePin = s.strikePin ∧ (s.withBands bs).lidPin = s.lidPin ∧
    (s.withBands bs).rtb = s.rtb ∧ (s.withBands bs).csm = s.csm ∧ (s.withBands bs).ibe = s.ibe ∧
    (s.withBands bs).spm = s.spm ∧ (s.withBands bs).ric = s.ric ∧ (s.withBands bs).tmo = s.tmo ∧
    (s.withBands bs).lkp = s.lkp ∧ (s.withBands bs).cls = s.cls ∧ (s.withBands bs).pending = s.pending :=
  by and_intros <;> rfl

@[simp] theorem State.loadBandItem_frame (n : Nat) (s : State) :
    (s.loadBandItem n).time = s.time ∧ (s.loadBandItem n).rst = s.rst ∧ (s.loadBandItem n).startUp = s.startUp ∧
    (s.loadBandItem n).strikePin = s.strikePin ∧ (s.loadBandItem n).lidPin = s.lidPin ∧
    (s.loadBandItem n).rtb = s.rtb ∧ (s.loadBandItem n).csm = s.csm ∧ (s.loadBandItem n).ibe = s.ibe ∧
    (s.loadBandItem n).spm = s.spm ∧ (s.loadBandItem n).ric = s.ric ∧ (s.loadBandItem n).tmo = s.tmo ∧
    (s.loadBandItem n).cls = s.cls ∧ (s.loadBandItem n).pending = s.pending :=
  by
  unfold State.loadBandItem
  split
  · simp
  · dsimp only
    split <;> simp

@[simp] theorem State.loadBands_frame (s : State) :
    (s.loadBands).time = s.time ∧ (s.loadBands).rst = s.rst ∧ (s.loadBands).startUp = s.startUp ∧
    (s.loadBands).strikePin = s.strikePin ∧ (s.loadBands).lidPin = s.lidPin ∧ (s.loadBands).rtb = s.rtb ∧
    (s.loadBands).csm = s.csm ∧ (s.loadBands).ibe = s.ibe ∧ (s.loadBands).spm = s.spm ∧
    (s.loadBands).ric = s.ric ∧ (s.loadBands).tmo = s.tmo ∧ (s.loadBands).cls = s.cls ∧
    (s.loadBands).pending = s.pending :=
  by simp [State.loadBands]

@[simp] theorem State.reloadBands_frame (s : State) :
    (s.reloadBands).time = s.time ∧ (s.reloadBands).rst = s.rst ∧ (s.reloadBands).startUp = s.startUp ∧
    (s.reloadBands).strikePin = s.strikePin ∧ (s.reloadBands).lidPin = s.lidPin ∧ (s.reloadBands).rtb = s.rtb ∧
    (s.reloadBands).csm = s.csm ∧ (s.reloadBands).ibe = s.ibe ∧ (s.reloadBands).spm = s.spm ∧
    (s.reloadBands).ric = s.ric ∧ (s.reloadBands).tmo = s.tmo ∧ (s.reloadBands).cls = s.cls ∧
    (s.reloadBands).pending = s.pending :=
  by simp [State.reloadBands]

@[simp] theorem State.raiseBands_frame (s : State) :
    (s.raiseBands).time = s.time ∧ (s.raiseBands).rst = s.rst ∧ (s.raiseBands).startUp = s.startUp ∧
    (s.raiseBands).strikePin = s.strikePin ∧ (s.raiseBands).lidPin = s.lidPin ∧ (s.raiseBands).rtb = s.rtb ∧
    (s.raiseBands).csm = s.csm ∧ (s.raiseBands).ibe = s.ibe ∧ (s.raiseBands).spm = s.spm ∧
    (s.raiseBands).ric = s.ric ∧ (s.raiseBands).tmo = s.tmo ∧ (s.raiseBands).lkp = s.lkp ∧
    (s.raiseBands).cls = s.cls ∧ (s.raiseBands).pending = s.pending :=
  by simp [State.raiseBands]

@[simp] theorem State.closeSpan_frame (s : State) :
    (s.closeSpan).time = s.time ∧ (s.closeSpan).rst = s.rst ∧ (s.closeSpan).startUp = s.startUp ∧
    (s.closeSpan).strikePin = s.strikePin ∧ (s.closeSpan).lidPin = s.lidPin ∧ (s.closeSpan).rtb = s.rtb ∧
    (s.closeSpan).csm = s.csm ∧ (s.closeSpan).ibe = s.ibe ∧ (s.closeSpan).ric = s.ric ∧
    (s.closeSpan).tmo = s.tmo ∧ (s.closeSpan).cls = s.cls ∧ (s.closeSpan).pending = s.pending :=
  by
  unfold State.closeSpan
  split
  · simp
  · dsimp only
    split
    · simp
    · split <;> simp

@[simp] theorem State.planReport_frame (s : State) :
    (s.planReport).time = s.time ∧ (s.planReport).rst = s.rst ∧ (s.planReport).startUp = s.startUp ∧
    (s.planReport).strikePin = s.strikePin ∧ (s.planReport).lidPin = s.lidPin ∧ (s.planReport).rtb = s.rtb ∧
    (s.planReport).csm = s.csm ∧ (s.planReport).ibe = s.ibe ∧ (s.planReport).tmo = s.tmo ∧
    (s.planReport).cls = s.cls ∧ (s.planReport).pending = s.pending :=
  by
  unfold State.planReport
  split <;> simp

@[simp] theorem State.learn_frame (c : Completion) (s : State) :
    (s.learn c).time = s.time ∧ (s.learn c).rst = s.rst ∧ (s.learn c).startUp = s.startUp ∧
    (s.learn c).strikePin = s.strikePin ∧ (s.learn c).lidPin = s.lidPin ∧ (s.learn c).rtb = s.rtb ∧
    (s.learn c).csm = s.csm ∧ (s.learn c).ibe = s.ibe ∧ (s.learn c).ric = s.ric ∧ (s.learn c).tmo = s.tmo ∧
    (s.learn c).cls = s.cls ∧ (s.learn c).pending = s.pending :=
  by
  unfold State.learn
  split
  · simp
  · split
    · simp
    · dsimp only
      split <;> simp

@[simp] theorem State.changeBands_frame (bs : List Band) (s : State) :
    (s.changeBands bs).time = s.time ∧ (s.changeBands bs).rst = s.rst ∧ (s.changeBands bs).startUp = s.startUp ∧
    (s.changeBands bs).strikePin = s.strikePin ∧ (s.changeBands bs).lidPin = s.lidPin ∧
    (s.changeBands bs).rtb = s.rtb ∧ (s.changeBands bs).csm = s.csm ∧ (s.changeBands bs).ibe = s.ibe ∧
    (s.changeBands bs).tmo = s.tmo ∧ (s.changeBands bs).cls = s.cls ∧ (s.changeBands bs).pending = s.pending :=
  by
  unfold State.changeBands
  split <;> simp

/-! ### Hand-overs between blocks -/

@[simp] theorem State.autoPost_frame (s : State) :
    (s.autoPost).time = s.time ∧ (s.autoPost).rst = s.rst ∧ (s.autoPost).startUp = s.startUp ∧
    (s.autoPost).strikePin = s.strikePin ∧ (s.autoPost).lidPin = s.lidPin ∧ (s.autoPost).rtb = s.rtb ∧
    (s.autoPost).csm = s.csm ∧ (s.autoPost).rbt = s.rbt ∧ (s.autoPost).spm = s.spm ∧ (s.autoPost).tmo = s.tmo ∧
    (s.autoPost).cls = s.cls ∧ (s.autoPost).pending = s.pending :=
  by
  unfold State.autoPost
  split
  · dsimp only
    split
    · simp
    · split <;> simp
  · simp

@[simp] theorem State.giveUpdate_frame (s : State) :
    (s.giveUpdate).time = s.time ∧ (s.giveUpdate).rst = s.rst ∧ (s.giveUpdate).startUp = s.startUp ∧
    (s.giveUpdate).strikePin = s.strikePin ∧ (s.giveUpdate).lidPin = s.lidPin ∧ (s.giveUpdate).rtb = s.rtb ∧
    (s.giveUpdate).csm = s.csm ∧ (s.giveUpdate).rbt = s.rbt ∧ (s.giveUpdate).tmo = s.tmo ∧
    (s.giveUpdate).cls = s.cls ∧ (s.giveUpdate).pending = s.pending :=
  by simp [State.giveUpdate]

@[simp] theorem State.handUpdate_frame (s : State) :
    (s.handUpdate).time = s.time ∧ (s.handUpdate).rst = s.rst ∧ (s.handUpdate).startUp = s.startUp ∧
    (s.handUpdate).strikePin = s.strikePin ∧ (s.handUpdate).lidPin = s.lidPin ∧ (s.handUpdate).rtb = s.rtb ∧
    (s.handUpdate).csm = s.csm ∧ (s.handUpdate).tmo = s.tmo ∧ (s.handUpdate).cls = s.cls ∧
    (s.handUpdate).pending = s.pending :=
  by simp [State.handUpdate]

@[simp] theorem State.orderServing_frame (s : State) :
    (s.orderServing).time = s.time ∧ (s.orderServing).rst = s.rst ∧ (s.orderServing).startUp = s.startUp ∧
    (s.orderServing).strikePin = s.strikePin ∧ (s.orderServing).lidPin = s.lidPin ∧
    (s.orderServing).rtb = s.rtb ∧ (s.orderServing).csm = s.csm ∧ (s.orderServing).tmo = s.tmo ∧
    (s.orderServing).cls = s.cls ∧ (s.orderServing).pending = s.pending :=
  by
  unfold State.orderServing
  dsimp only
  split <;> simp

@[simp] theorem State.changeGuard_frame (g : GuardLevel) (s : State) :
    (s.changeGuard g).time = s.time ∧ (s.changeGuard g).rst = s.rst ∧ (s.changeGuard g).startUp = s.startUp ∧
    (s.changeGuard g).strikePin = s.strikePin ∧ (s.changeGuard g).lidPin = s.lidPin ∧
    (s.changeGuard g).rtb = s.rtb ∧ (s.changeGuard g).csm = s.csm ∧ (s.changeGuard g).tmo = s.tmo ∧
    (s.changeGuard g).cls = s.cls ∧ (s.changeGuard g).pending = s.pending :=
  by
  unfold State.changeGuard
  split
  · simp
  · dsimp only
    split <;> simp

@[simp] theorem State.samplerPart_frame (a b : PartState) (s : State) :
    (s.samplerPart a b).time = s.time ∧ (s.samplerPart a b).rst = s.rst ∧
    (s.samplerPart a b).startUp = s.startUp ∧ (s.samplerPart a b).strikePin = s.strikePin ∧
    (s.samplerPart a b).lidPin = s.lidPin ∧ (s.samplerPart a b).rtb = s.rtb ∧ (s.samplerPart a b).ibe = s.ibe ∧
    (s.samplerPart a b).rbt = s.rbt ∧ (s.samplerPart a b).spm = s.spm ∧ (s.samplerPart a b).ric = s.ric ∧
    (s.samplerPart a b).tmo = s.tmo ∧ (s.samplerPart a b).lkp = s.lkp ∧ (s.samplerPart a b).cls = s.cls ∧
    (s.samplerPart a b).pending = s.pending :=
  by
  unfold State.samplerPart
  split
  · simp
  · split
    · simp
    · split <;> simp

@[simp] theorem State.setPart_frame (p : PartState) (s : State) :
    (s.setPart p).time = s.time ∧ (s.setPart p).rst = s.rst ∧ (s.setPart p).startUp = s.startUp ∧
    (s.setPart p).strikePin = s.strikePin ∧ (s.setPart p).lidPin = s.lidPin ∧ (s.setPart p).rtb = s.rtb ∧
    (s.setPart p).tmo = s.tmo ∧ (s.setPart p).cls = s.cls ∧ (s.setPart p).pending = s.pending :=
  by
  unfold State.setPart
  dsimp only
  split <;> split <;> simp

@[simp] theorem State.cancelQuiet_frame (s : State) :
    (s.cancelQuiet).time = s.time ∧ (s.cancelQuiet).rst = s.rst ∧ (s.cancelQuiet).startUp = s.startUp ∧
    (s.cancelQuiet).strikePin = s.strikePin ∧ (s.cancelQuiet).lidPin = s.lidPin ∧ (s.cancelQuiet).rtb = s.rtb ∧
    (s.cancelQuiet).tmo = s.tmo ∧ (s.cancelQuiet).cls = s.cls ∧ (s.cancelQuiet).pending = s.pending :=
  by simp [State.cancelQuiet]

@[simp] theorem State.wakeSource_frame (b : Bool) (s : State) :
    (s.wakeSource b).time = s.time ∧ (s.wakeSource b).rst = s.rst ∧ (s.wakeSource b).startUp = s.startUp ∧
    (s.wakeSource b).strikePin = s.strikePin ∧ (s.wakeSource b).lidPin = s.lidPin ∧
    (s.wakeSource b).rtb = s.rtb ∧ (s.wakeSource b).tmo = s.tmo ∧ (s.wakeSource b).cls = s.cls ∧
    (s.wakeSource b).pending = s.pending :=
  by
  unfold State.wakeSource
  dsimp only
  split <;> (try split) <;> simp

@[simp] theorem State.turningReport_frame (s : State) :
    (s.turningReport).time = s.time ∧ (s.turningReport).rst = s.rst ∧ (s.turningReport).startUp = s.startUp ∧
    (s.turningReport).strikePin = s.strikePin ∧ (s.turningReport).lidPin = s.lidPin ∧
    (s.turningReport).rtb = s.rtb ∧ (s.turningReport).tmo = s.tmo ∧ (s.turningReport).cls = s.cls ∧
    (s.turningReport).pending = s.pending :=
  by
  unfold State.turningReport
  split <;> simp

@[simp] theorem State.takePause_frame (r : PauseReason) (s : State) :
    (s.takePause r).time = s.time ∧ (s.takePause r).rst = s.rst ∧ (s.takePause r).startUp = s.startUp ∧
    (s.takePause r).strikePin = s.strikePin ∧ (s.takePause r).lidPin = s.lidPin ∧ (s.takePause r).rtb = s.rtb ∧
    (s.takePause r).csm = s.csm ∧ (s.takePause r).ibe = s.ibe ∧ (s.takePause r).rbt = s.rbt ∧
    (s.takePause r).ric = s.ric ∧ (s.takePause r).tmo = s.tmo ∧ (s.takePause r).cls = s.cls ∧
    (s.takePause r).pending = s.pending :=
  by
  unfold State.takePause
  split <;> simp

@[simp] theorem State.tripPlan_frame (s : State) :
    (s.tripPlan).time = s.time ∧ (s.tripPlan).rst = s.rst ∧ (s.tripPlan).startUp = s.startUp ∧
    (s.tripPlan).strikePin = s.strikePin ∧ (s.tripPlan).lidPin = s.lidPin ∧ (s.tripPlan).rtb = s.rtb ∧
    (s.tripPlan).csm = s.csm ∧ (s.tripPlan).ibe = s.ibe ∧ (s.tripPlan).rbt = s.rbt ∧ (s.tripPlan).ric = s.ric ∧
    (s.tripPlan).tmo = s.tmo ∧ (s.tripPlan).cls = s.cls ∧ (s.tripPlan).pending = s.pending :=
  by
  unfold State.tripPlan
  split <;> simp

@[simp] theorem State.handTrip_frame (s : State) :
    (s.handTrip).time = s.time ∧ (s.handTrip).rst = s.rst ∧ (s.handTrip).startUp = s.startUp ∧
    (s.handTrip).strikePin = s.strikePin ∧ (s.handTrip).lidPin = s.lidPin ∧ (s.handTrip).rtb = s.rtb ∧
    (s.handTrip).tmo = s.tmo ∧ (s.handTrip).cls = s.cls ∧ (s.handTrip).pending = s.pending :=
  by
  unfold State.handTrip
  dsimp only
  split <;> simp

@[simp] theorem State.findCause_frame (c : Cause) (s : State) :
    (s.findCause c).time = s.time ∧ (s.findCause c).rst = s.rst ∧ (s.findCause c).startUp = s.startUp ∧
    (s.findCause c).strikePin = s.strikePin ∧ (s.findCause c).lidPin = s.lidPin ∧ (s.findCause c).rtb = s.rtb ∧
    (s.findCause c).cls = s.cls ∧ (s.findCause c).pending = s.pending :=
  by
  unfold State.findCause
  split
  · simp
  · split <;> simp

@[simp] theorem State.lidPlan_frame (s : State) :
    (s.lidPlan).time = s.time ∧ (s.lidPlan).rst = s.rst ∧ (s.lidPlan).startUp = s.startUp ∧
    (s.lidPlan).strikePin = s.strikePin ∧ (s.lidPlan).lidPin = s.lidPin ∧ (s.lidPlan).rtb = s.rtb ∧
    (s.lidPlan).csm = s.csm ∧ (s.lidPlan).ibe = s.ibe ∧ (s.lidPlan).rbt = s.rbt ∧ (s.lidPlan).ric = s.ric ∧
    (s.lidPlan).tmo = s.tmo ∧ (s.lidPlan).cls = s.cls ∧ (s.lidPlan).pending = s.pending :=
  by
  unfold State.lidPlan
  split <;> simp

@[simp] theorem State.unlockLid_frame (s : State) :
    (s.unlockLid).time = s.time ∧ (s.unlockLid).rst = s.rst ∧ (s.unlockLid).startUp = s.startUp ∧
    (s.unlockLid).strikePin = s.strikePin ∧ (s.unlockLid).lidPin = s.lidPin ∧ (s.unlockLid).rtb = s.rtb ∧
    (s.unlockLid).csm = s.csm ∧ (s.unlockLid).ibe = s.ibe ∧ (s.unlockLid).cls = s.cls ∧
    (s.unlockLid).pending = s.pending :=
  by simp [State.unlockLid]

@[simp] theorem State.lockLid_frame (s : State) :
    (s.lockLid).time = s.time ∧ (s.lockLid).rst = s.rst ∧ (s.lockLid).startUp = s.startUp ∧
    (s.lockLid).strikePin = s.strikePin ∧ (s.lockLid).lidPin = s.lidPin ∧ (s.lockLid).rtb = s.rtb ∧
    (s.lockLid).csm = s.csm ∧ (s.lockLid).ibe = s.ibe ∧ (s.lockLid).cls = s.cls ∧
    (s.lockLid).pending = s.pending :=
  by simp [State.lockLid]

@[simp] theorem State.clearTrip_frame (s : State) :
    (s.clearTrip).time = s.time ∧ (s.clearTrip).rst = s.rst ∧ (s.clearTrip).startUp = s.startUp ∧
    (s.clearTrip).strikePin = s.strikePin ∧ (s.clearTrip).lidPin = s.lidPin ∧ (s.clearTrip).rtb = s.rtb ∧
    (s.clearTrip).csm = s.csm ∧ (s.clearTrip).ibe = s.ibe ∧ (s.clearTrip).cls = s.cls ∧
    (s.clearTrip).pending = s.pending :=
  by simp [State.clearTrip]

/-! ### The corner sampler -/

@[simp] theorem State.convertSlot_frame (k : Nat) (c : Four Code) (s : State) :
    (s.convertSlot k c).time = s.time ∧ (s.convertSlot k c).rst = s.rst ∧
    (s.convertSlot k c).startUp = s.startUp ∧ (s.convertSlot k c).strikePin = s.strikePin ∧
    (s.convertSlot k c).lidPin = s.lidPin ∧ (s.convertSlot k c).rtb = s.rtb ∧ (s.convertSlot k c).ibe = s.ibe ∧
    (s.convertSlot k c).rbt = s.rbt ∧ (s.convertSlot k c).spm = s.spm ∧ (s.convertSlot k c).ric = s.ric ∧
    (s.convertSlot k c).tmo = s.tmo ∧ (s.convertSlot k c).lkp = s.lkp ∧ (s.convertSlot k c).cls = s.cls ∧
    (s.convertSlot k c).pending = s.pending :=
  by
  unfold State.convertSlot
  split <;> simp

@[simp] theorem State.clearSums_frame (s : State) :
    (s.clearSums).time = s.time ∧ (s.clearSums).rst = s.rst ∧ (s.clearSums).startUp = s.startUp ∧
    (s.clearSums).strikePin = s.strikePin ∧ (s.clearSums).lidPin = s.lidPin ∧ (s.clearSums).rtb = s.rtb ∧
    (s.clearSums).ibe = s.ibe ∧ (s.clearSums).rbt = s.rbt ∧ (s.clearSums).spm = s.spm ∧
    (s.clearSums).ric = s.ric ∧ (s.clearSums).tmo = s.tmo ∧ (s.clearSums).lkp = s.lkp ∧
    (s.clearSums).cls = s.cls ∧ (s.clearSums).pending = s.pending :=
  by and_intros <;> rfl

@[simp] theorem State.observeRevolution_frame (s : State) :
    (s.observeRevolution).time = s.time ∧ (s.observeRevolution).rst = s.rst ∧
    (s.observeRevolution).startUp = s.startUp ∧ (s.observeRevolution).strikePin = s.strikePin ∧
    (s.observeRevolution).lidPin = s.lidPin ∧ (s.observeRevolution).rtb = s.rtb ∧
    (s.observeRevolution).ibe = s.ibe ∧ (s.observeRevolution).rbt = s.rbt ∧ (s.observeRevolution).spm = s.spm ∧
    (s.observeRevolution).ric = s.ric ∧ (s.observeRevolution).tmo = s.tmo ∧ (s.observeRevolution).lkp = s.lkp ∧
    (s.observeRevolution).cls = s.cls ∧ (s.observeRevolution).pending = s.pending :=
  by and_intros <;> rfl

@[simp] theorem State.recomputeMass_frame (s : State) :
    (s.recomputeMass).time = s.time ∧ (s.recomputeMass).rst = s.rst ∧ (s.recomputeMass).startUp = s.startUp ∧
    (s.recomputeMass).strikePin = s.strikePin ∧ (s.recomputeMass).lidPin = s.lidPin ∧
    (s.recomputeMass).rtb = s.rtb ∧ (s.recomputeMass).ibe = s.ibe ∧ (s.recomputeMass).rbt = s.rbt ∧
    (s.recomputeMass).spm = s.spm ∧ (s.recomputeMass).ric = s.ric ∧ (s.recomputeMass).tmo = s.tmo ∧
    (s.recomputeMass).lkp = s.lkp ∧ (s.recomputeMass).cls = s.cls ∧ (s.recomputeMass).pending = s.pending :=
  by and_intros <;> rfl

@[simp] theorem State.recomputeSag_frame (s : State) :
    (s.recomputeSag).time = s.time ∧ (s.recomputeSag).rst = s.rst ∧ (s.recomputeSag).startUp = s.startUp ∧
    (s.recomputeSag).strikePin = s.strikePin ∧ (s.recomputeSag).lidPin = s.lidPin ∧
    (s.recomputeSag).rtb = s.rtb ∧ (s.recomputeSag).ibe = s.ibe ∧ (s.recomputeSag).rbt = s.rbt ∧
    (s.recomputeSag).spm = s.spm ∧ (s.recomputeSag).ric = s.ric ∧ (s.recomputeSag).tmo = s.tmo ∧
    (s.recomputeSag).lkp = s.lkp ∧ (s.recomputeSag).cls = s.cls ∧ (s.recomputeSag).pending = s.pending :=
  by simp [State.recomputeSag]

@[simp] theorem State.stopStatic_frame (s : State) :
    (s.stopStatic).time = s.time ∧ (s.stopStatic).rst = s.rst ∧ (s.stopStatic).startUp = s.startUp ∧
    (s.stopStatic).strikePin = s.strikePin ∧ (s.stopStatic).lidPin = s.lidPin ∧ (s.stopStatic).rtb = s.rtb ∧
    (s.stopStatic).ibe = s.ibe ∧ (s.stopStatic).rbt = s.rbt ∧ (s.stopStatic).spm = s.spm ∧
    (s.stopStatic).ric = s.ric ∧ (s.stopStatic).tmo = s.tmo ∧ (s.stopStatic).lkp = s.lkp ∧
    (s.stopStatic).cls = s.cls ∧ (s.stopStatic).pending = s.pending :=
  by and_intros <;> rfl

@[simp] theorem State.applyStatic_frame (s : State) :
    (s.applyStatic).time = s.time ∧ (s.applyStatic).rst = s.rst ∧ (s.applyStatic).startUp = s.startUp ∧
    (s.applyStatic).strikePin = s.strikePin ∧ (s.applyStatic).lidPin = s.lidPin ∧ (s.applyStatic).rtb = s.rtb ∧
    (s.applyStatic).ibe = s.ibe ∧ (s.applyStatic).rbt = s.rbt ∧ (s.applyStatic).spm = s.spm ∧
    (s.applyStatic).ric = s.ric ∧ (s.applyStatic).tmo = s.tmo ∧ (s.applyStatic).lkp = s.lkp ∧
    (s.applyStatic).cls = s.cls ∧ (s.applyStatic).pending = s.pending :=
  by
  unfold State.applyStatic
  split
  · split <;> simp
  · split <;> simp

@[simp] theorem State.watchSag_frame (s : State) :
    (s.watchSag).time = s.time ∧ (s.watchSag).rst = s.rst ∧ (s.watchSag).startUp = s.startUp ∧
    (s.watchSag).strikePin = s.strikePin ∧ (s.watchSag).lidPin = s.lidPin ∧ (s.watchSag).rtb = s.rtb ∧
    (s.watchSag).tmo = s.tmo ∧ (s.watchSag).cls = s.cls ∧ (s.watchSag).pending = s.pending :=
  by
  unfold State.watchSag
  split
  · simp
  · simp
  · split <;> simp

@[simp] theorem State.staticSample_frame (c : Four Code) (s : State) :
    (s.staticSample c).time = s.time ∧ (s.staticSample c).rst = s.rst ∧ (s.staticSample c).startUp = s.startUp ∧
    (s.staticSample c).strikePin = s.strikePin ∧ (s.staticSample c).lidPin = s.lidPin ∧
    (s.staticSample c).rtb = s.rtb ∧ (s.staticSample c).tmo = s.tmo ∧ (s.staticSample c).cls = s.cls ∧
    (s.staticSample c).pending = s.pending :=
  by
  unfold State.staticSample
  dsimp only
  split <;> simp

@[simp] theorem State.samplerStandstill_frame (s : State) :
    (s.samplerStandstill).time = s.time ∧ (s.samplerStandstill).rst = s.rst ∧
    (s.samplerStandstill).startUp = s.startUp ∧ (s.samplerStandstill).strikePin = s.strikePin ∧
    (s.samplerStandstill).lidPin = s.lidPin ∧ (s.samplerStandstill).rtb = s.rtb ∧
    (s.samplerStandstill).ibe = s.ibe ∧ (s.samplerStandstill).rbt = s.rbt ∧ (s.samplerStandstill).spm = s.spm ∧
    (s.samplerStandstill).ric = s.ric ∧ (s.samplerStandstill).tmo = s.tmo ∧ (s.samplerStandstill).lkp = s.lkp ∧
    (s.samplerStandstill).cls = s.cls ∧ (s.samplerStandstill).pending = s.pending :=
  by simp [State.samplerStandstill]

/-! ### Completions and standstills -/

@[simp] theorem State.firstEdge_frame (s : State) :
    (s.firstEdge).time = s.time ∧ (s.firstEdge).rst = s.rst ∧ (s.firstEdge).startUp = s.startUp ∧
    (s.firstEdge).strikePin = s.strikePin ∧ (s.firstEdge).lidPin = s.lidPin ∧ (s.firstEdge).csm = s.csm ∧
    (s.firstEdge).ibe = s.ibe ∧ (s.firstEdge).rbt = s.rbt ∧ (s.firstEdge).spm = s.spm ∧
    (s.firstEdge).ric = s.ric ∧ (s.firstEdge).tmo = s.tmo ∧ (s.firstEdge).lkp = s.lkp ∧
    (s.firstEdge).cls = s.cls ∧ (s.firstEdge).pending = s.pending :=
  by and_intros <;> rfl

@[simp] theorem State.closeRevolution_frame (p : Nat) (s : State) :
    (s.closeRevolution p).time = s.time ∧ (s.closeRevolution p).rst = s.rst ∧
    (s.closeRevolution p).startUp = s.startUp ∧ (s.closeRevolution p).strikePin = s.strikePin ∧
    (s.closeRevolution p).lidPin = s.lidPin ∧ (s.closeRevolution p).csm = s.csm ∧
    (s.closeRevolution p).ibe = s.ibe ∧ (s.closeRevolution p).rbt = s.rbt ∧ (s.closeRevolution p).spm = s.spm ∧
    (s.closeRevolution p).ric = s.ric ∧ (s.closeRevolution p).tmo = s.tmo ∧ (s.closeRevolution p).lkp = s.lkp ∧
    (s.closeRevolution p).cls = s.cls ∧ (s.closeRevolution p).pending = s.pending :=
  by and_intros <;> rfl

@[simp] theorem State.endRun_frame (s : State) :
    (s.endRun).time = s.time ∧ (s.endRun).rst = s.rst ∧ (s.endRun).startUp = s.startUp ∧
    (s.endRun).strikePin = s.strikePin ∧ (s.endRun).lidPin = s.lidPin ∧ (s.endRun).csm = s.csm ∧
    (s.endRun).ibe = s.ibe ∧ (s.endRun).rbt = s.rbt ∧ (s.endRun).spm = s.spm ∧ (s.endRun).ric = s.ric ∧
    (s.endRun).tmo = s.tmo ∧ (s.endRun).lkp = s.lkp ∧ (s.endRun).cls = s.cls ∧ (s.endRun).pending = s.pending :=
  by and_intros <;> rfl

@[simp] theorem State.polarityChanged_frame (s : State) :
    (s.polarityChanged).time = s.time ∧ (s.polarityChanged).rst = s.rst ∧
    (s.polarityChanged).startUp = s.startUp ∧ (s.polarityChanged).strikePin = s.strikePin ∧
    (s.polarityChanged).lidPin = s.lidPin ∧ (s.polarityChanged).csm = s.csm ∧ (s.polarityChanged).ibe = s.ibe ∧
    (s.polarityChanged).rbt = s.rbt ∧ (s.polarityChanged).spm = s.spm ∧ (s.polarityChanged).ric = s.ric ∧
    (s.polarityChanged).tmo = s.tmo ∧ (s.polarityChanged).lkp = s.lkp ∧ (s.polarityChanged).cls = s.cls ∧
    (s.polarityChanged).pending = s.pending :=
  by
  unfold State.polarityChanged
  split <;> simp

@[simp] theorem State.testOrbit_frame (c : Completion) (s : State) :
    (s.testOrbit c).time = s.time ∧ (s.testOrbit c).rst = s.rst ∧ (s.testOrbit c).startUp = s.startUp ∧
    (s.testOrbit c).strikePin = s.strikePin ∧ (s.testOrbit c).lidPin = s.lidPin ∧ (s.testOrbit c).rtb = s.rtb ∧
    (s.testOrbit c).cls = s.cls ∧ (s.testOrbit c).pending = s.pending :=
  by
  unfold State.testOrbit
  split <;> simp

@[simp] theorem State.testSensors_frame (c : Completion) (s : State) :
    (s.testSensors c).time = s.time ∧ (s.testSensors c).rst = s.rst ∧ (s.testSensors c).startUp = s.startUp ∧
    (s.testSensors c).strikePin = s.strikePin ∧ (s.testSensors c).lidPin = s.lidPin ∧
    (s.testSensors c).rtb = s.rtb ∧ (s.testSensors c).cls = s.cls ∧ (s.testSensors c).pending = s.pending :=
  by
  unfold State.testSensors
  split <;> simp

@[simp] theorem State.testOverspeed_frame (c : Completion) (s : State) :
    (s.testOverspeed c).time = s.time ∧ (s.testOverspeed c).rst = s.rst ∧
    (s.testOverspeed c).startUp = s.startUp ∧ (s.testOverspeed c).strikePin = s.strikePin ∧
    (s.testOverspeed c).lidPin = s.lidPin ∧ (s.testOverspeed c).rtb = s.rtb ∧ (s.testOverspeed c).cls = s.cls ∧
    (s.testOverspeed c).pending = s.pending :=
  by
  unfold State.testOverspeed
  split
  · dsimp only
    split <;> simp
  · simp

@[simp] theorem State.planCompletion_frame (c : Completion) (s : State) :
    (s.planCompletion c).time = s.time ∧ (s.planCompletion c).rst = s.rst ∧
    (s.planCompletion c).startUp = s.startUp ∧ (s.planCompletion c).strikePin = s.strikePin ∧
    (s.planCompletion c).lidPin = s.lidPin ∧ (s.planCompletion c).rtb = s.rtb ∧
    (s.planCompletion c).csm = s.csm ∧ (s.planCompletion c).ibe = s.ibe ∧ (s.planCompletion c).tmo = s.tmo ∧
    (s.planCompletion c).cls = s.cls ∧ (s.planCompletion c).pending = s.pending :=
  by simp [State.planCompletion]

@[simp] theorem State.ringCompletion_frame (c : Completion) (s : State) :
    (s.ringCompletion c).time = s.time ∧ (s.ringCompletion c).rst = s.rst ∧
    (s.ringCompletion c).startUp = s.startUp ∧ (s.ringCompletion c).strikePin = s.strikePin ∧
    (s.ringCompletion c).lidPin = s.lidPin ∧ (s.ringCompletion c).rtb = s.rtb ∧
    (s.ringCompletion c).csm = s.csm ∧ (s.ringCompletion c).rbt = s.rbt ∧ (s.ringCompletion c).spm = s.spm ∧
    (s.ringCompletion c).tmo = s.tmo ∧ (s.ringCompletion c).cls = s.cls ∧
    (s.ringCompletion c).pending = s.pending :=
  by simp [State.ringCompletion]

@[simp] theorem State.takeCompletion_frame (c : Completion) (k : Taker) (s : State) :
    (s.takeCompletion c k).time = s.time ∧ (s.takeCompletion c k).rst = s.rst ∧
    (s.takeCompletion c k).startUp = s.startUp ∧ (s.takeCompletion c k).strikePin = s.strikePin ∧
    (s.takeCompletion c k).lidPin = s.lidPin ∧ (s.takeCompletion c k).rtb = s.rtb ∧
    (s.takeCompletion c k).cls = s.cls ∧ (s.takeCompletion c k).pending = s.pending :=
  by
  unfold State.takeCompletion
  cases k <;> simp

@[simp] theorem State.planStandstill_frame (s : State) :
    (s.planStandstill).time = s.time ∧ (s.planStandstill).rst = s.rst ∧ (s.planStandstill).startUp = s.startUp ∧
    (s.planStandstill).strikePin = s.strikePin ∧ (s.planStandstill).lidPin = s.lidPin ∧
    (s.planStandstill).rtb = s.rtb ∧ (s.planStandstill).csm = s.csm ∧ (s.planStandstill).ibe = s.ibe ∧
    (s.planStandstill).tmo = s.tmo ∧ (s.planStandstill).cls = s.cls ∧ (s.planStandstill).pending = s.pending :=
  by
  unfold State.planStandstill
  dsimp only
  split <;> simp

@[simp] theorem State.ringStandstill_frame (s : State) :
    (s.ringStandstill).time = s.time ∧ (s.ringStandstill).rst = s.rst ∧ (s.ringStandstill).startUp = s.startUp ∧
    (s.ringStandstill).strikePin = s.strikePin ∧ (s.ringStandstill).lidPin = s.lidPin ∧
    (s.ringStandstill).rtb = s.rtb ∧ (s.ringStandstill).csm = s.csm ∧ (s.ringStandstill).rbt = s.rbt ∧
    (s.ringStandstill).spm = s.spm ∧ (s.ringStandstill).tmo = s.tmo ∧ (s.ringStandstill).cls = s.cls ∧
    (s.ringStandstill).pending = s.pending :=
  by simp [State.ringStandstill]

@[simp] theorem State.takeStandstill_frame (k : Taker) (s : State) :
    (s.takeStandstill k).time = s.time ∧ (s.takeStandstill k).rst = s.rst ∧
    (s.takeStandstill k).startUp = s.startUp ∧ (s.takeStandstill k).strikePin = s.strikePin ∧
    (s.takeStandstill k).lidPin = s.lidPin ∧ (s.takeStandstill k).rtb = s.rtb ∧
    (s.takeStandstill k).csm = s.csm ∧ (s.takeStandstill k).cls = s.cls ∧
    (s.takeStandstill k).pending = s.pending :=
  by
  unfold State.takeStandstill
  cases k <;> simp

end Sys2Proof.Machine
end

