-- ==== Sys2Proof/Laws/Link.lean ====
section
/-! SUPPORT. What the Link Ports do with a frame: the case of a port that is ready, and the ports after an answer. -/

namespace Sys2Proof.Machine

/-! ### Ports -/

@[simp] theorem State.portOf_setPort (p : Port) (v : PortState) (s : State) : (s.setPort p v).portOf p = v := by
  cases p <;> rfl

@[simp] theorem State.portOf_elapse (p : Port) (n : Nat) (s : State) : (s.elapse n).portOf p = s.portOf p := by
  cases p <;> rfl

@[simp] theorem State.inReset_elapse (n : Nat) (s : State) : (s.elapse n).inReset = s.inReset := rfl

@[simp] theorem State.inReset_setPort (p : Port) (v : PortState) (s : State) : (s.setPort p v).inReset = s.inReset := by
  cases p <;> rfl

@[simp] theorem State.inReset_clearRx (p : Port) (s : State) : (s.clearRx p).inReset = s.inReset := by
  simp [State.clearRx]

/-- Setting a port changes the port alone. -/
theorem State.setPort_lkp (p : Port) (v : PortState) (s : State) :
    (s.setPort p v).lkp.image = s.lkp.image ∧ (s.setPort p v).lkp.driveAtn = s.lkp.driveAtn ∧
    (s.setPort p v).lkp.notices = s.lkp.notices ∧ (s.setPort p v).lkp.part = s.lkp.part ∧
    (s.setPort p v).lkp.quietTimer = s.lkp.quietTimer ∧ (s.setPort p v).lkp.wakeTimer = s.lkp.wakeTimer := by
  cases p <;> (and_intros <;> rfl)

@[simp] theorem State.clearRx_part (p : Port) (s : State) : (s.clearRx p).lkp.part = s.lkp.part := by
  simp [State.clearRx, State.setPort_lkp]

@[simp] theorem State.clearRx_inProgress (p : Port) (s : State) :
    ((s.clearRx p).portOf p).inProgress = (s.portOf p).inProgress := by
  simp [State.clearRx]

/-! ### A ready port -/

/-- A request that a ready port receives, of a known form and with the rights of its port, is taken by its owner. -/
theorem State.deliver_ready {p : Port} {a : Byte} {s : State} (h : s.ready p a) (after : Nat) (own : Owner) (f : Frame)
    (hp : f.port = p) (ha : f.addr = a) (hf : f.formOk = true) (hr : p = .drive → f.driveRights = true) :
    (s.elapse after).deliver own f = State.finish f (own f (s.taking after p)) := by
  obtain ⟨h1, h2, h3, h4⟩ := h
  subst hp
  have hadd : ((s.elapse after).clearRx f.port).addressing f = .addressed := by
    unfold State.addressing
    cases hport : f.port with
    | drive => rfl
    | cycle => simp [State.nodeAddress, h1, h4 hport, ha]
  have hdeal : ((s.elapse after).clearRx f.port).dealAddressed own f = own f (s.taking after f.port) := by
    unfold State.dealAddressed
    simp only [State.clearRx_part, State.elapse_frame, h2]
    unfold State.examine
    cases hport : f.port with
    | drive => simp [hf, hr hport, State.taking]
    | cycle => simp [hf, State.taking]
  unfold State.deliver
  simp only [hadd]
  unfold State.receiveAddressed
  simp [h3, hdeal]

/-- The same for a row of the table. -/
theorem received_ready {p : Port} {a : Byte} {s : State} (h : s.ready p a) (after : Nat) (own : Owner) (f : Frame)
    (hp : f.port = p) (ha : f.addr = a) (hf : f.formOk = true) (hr : p = .drive → f.driveRights = true) :
    received after own f s = .next (State.finish f (own f (s.taking after p))) := by
  unfold received
  rw [State.deliver_ready h after own f hp ha hf hr]

/-- The answer an owner gives is the answer being sent. -/
theorem State.reply_finish (f : Frame) (r : Reply) : (State.finish f r).reply f.port = r.answer := by
  simp [State.finish, State.reply]

/-- Finishing a request changes LKP alone. -/
theorem State.finish_frame (f : Frame) (r : Reply) :
    (State.finish f r).time = r.state.time ∧ (State.finish f r).rst = r.state.rst ∧
    (State.finish f r).startUp = r.state.startUp ∧ (State.finish f r).strikePin = r.state.strikePin ∧
    (State.finish f r).lidPin = r.state.lidPin ∧ (State.finish f r).rtb = r.state.rtb ∧
    (State.finish f r).csm = r.state.csm ∧ (State.finish f r).ibe = r.state.ibe ∧ (State.finish f r).rbt = r.state.rbt ∧
    (State.finish f r).spm = r.state.spm ∧ (State.finish f r).ric = r.state.ric ∧ (State.finish f r).tmo = r.state.tmo ∧
    (State.finish f r).cls = r.state.cls ∧ (State.finish f r).pending = r.state.pending := by
  simp [State.finish]

/-- A request with an answer leaves the state its owner made, replying. -/
theorem State.finish_answer (f : Frame) (s : State) (a : Answer) :
    State.finish f ⟨s, some a, false⟩ = s.replying f.port f.caller a := rfl

/-- What a request finds differs from the state before it in the time and its port alone. -/
theorem State.taking_frame (after : Nat) (p : Port) (s : State) :
    (s.taking after p).rst = s.rst ∧ (s.taking after p).startUp = s.startUp ∧ (s.taking after p).rtb = s.rtb ∧
    (s.taking after p).csm = s.csm ∧ (s.taking after p).ibe = s.ibe ∧ (s.taking after p).rbt = s.rbt ∧
    (s.taking after p).spm = s.spm ∧ (s.taking after p).ric = s.ric ∧ (s.taking after p).tmo = s.tmo ∧
    (s.taking after p).cls = s.cls ∧ (s.taking after p).pending = s.pending ∧
    (s.taking after p).strikePin = s.strikePin ∧ (s.taking after p).lidPin = s.lidPin ∧
    (s.taking after p).time = s.time + after := by
  simp [State.taking, State.elapse]

/-! ### Forms -/

/-- A LOOKUP of one of the ten classes with no parameter passes the form check. -/
theorem formOk_lookup {r : Request} (h : r.params = []) (c : Byte) (hc : c ∈ ([1, 2, 3, 4, 5, 6, 7, 8, 9, 10] : List Byte)) :
    (frameOf 1#8 c r).formOk = true := by
  simp only [List.mem_cons, List.not_mem_nil, or_false] at hc
  rcases hc with rfl | rfl | rfl | rfl | rfl | rfl | rfl | rfl | rfl | rfl <;>
    simp [Frame.formOk, forms, Form.admits, frameOf, h]

/-- A frame passes the form check where a form of its kind and class admits its parameter count. -/
theorem formOk_of_mem {f : Frame} {fm : Form} (hm : fm ∈ forms) (h : fm.admits f = true) : f.formOk = true := by
  unfold Frame.formOk
  exact List.any_eq_true.mpr ⟨fm, hm, h⟩

/-- A request of a known form on a ready cycle port is taken by its owner. -/
theorem received_takes {s : State} {n : Nat} {r : Request} (h : s.takes n r) (after : Nat) (own : Owner)
    (kind cls : Byte) (counts : List Nat) (hm : (⟨kind, cls, none, counts⟩ : Form) ∈ forms) (hn : n ∈ counts) :
    received after own (frameOf kind cls r) s =
      .next (State.finish (frameOf kind cls r) (own (frameOf kind cls r) (s.taking after .cycle))) := by
  obtain ⟨hp, hl, hr⟩ := h
  refine received_ready hr after own _ hp rfl (formOk_of_mem hm ?_) (by simp)
  simp [Form.admits, frameOf, hl, hn]

/-- A command of a known form on a ready cycle port is taken by its owner. -/
theorem received_takesCommand {s : State} {n : Nat} {r : CommandRequest} (h : s.takesCommand n r) (after : Nat)
    (own : Owner) (cls : Byte) (code : Word) (counts : List Nat)
    (hm : (⟨6#8, cls, some code, counts⟩ : Form) ∈ forms) (hn : n ∈ counts) :
    received after own (commandFrame cls code r) s =
      .next (State.finish (commandFrame cls code r) (own (commandFrame cls code r) (s.taking after .cycle))) := by
  obtain ⟨hp, hl, hr⟩ := h
  refine received_ready hr after own _ hp rfl (formOk_of_mem hm ?_) (by simp)
  simp [Form.admits, commandFrame, hl, hn]

/-- A request that its owner answers with words and leaves the state as it is. -/
theorem finish_justAnswers {s : State} (after : Nat) (f : Frame) (hp : f.port = .cycle) (o : Outcome)
    (ws : List Word) :
    (.next (State.finish f ((s.taking after .cycle).answerWith o ws)) : Host.Outcome State Fault Refusal) =
      s.justAnswers after f.caller o ws := by
  unfold State.justAnswers State.answerWith
  rw [State.finish_answer, hp]

/-- A request that its owner answers with no record and leaves the state as it is. -/
theorem finish_justAnswers_nil {s : State} (after : Nat) (f : Frame) (hp : f.port = .cycle) (o : Outcome) :
    (.next (State.finish f ((s.taking after .cycle).answer o)) : Host.Outcome State Fault Refusal) =
      s.justAnswers after f.caller o [] :=
  finish_justAnswers after f hp o []

end Sys2Proof.Machine
end

