-- ==== Sys2Proof/Laws/Ring.lean ====
section
/-! SUPPORT. What a test of the freeze can do to the ring. -/

namespace Sys2Proof.Machine

theorem Four.set_get {α : Type} (v : Four α) (j : Fin 4) : v.set j (v.get j) = v := by
  rcases v with ⟨a, b, c, d⟩
  fin_cases j <;> rfl

/-- No water, no change. -/
theorem creditedTo_zero (h : Order) (c : Option (Four Nat)) : creditedTo h 0 c = c := by
  cases c <;> simp [creditedTo, Four.set_get]

/-- Merging into the order behind, where the two are equal. -/
theorem pushMerging_cons (o n : Order) (more : List Order) (h : o.merges n = true) :
    pushMerging o (n :: more) = o.absorb n :: more := by
  simp [pushMerging, h]

/-- No merging, where no equal order is behind. -/
theorem pushMerging_apart (o : Order) (rest : List Order) (h : ∀ n, rest.head? = some n → o.merges n = false) :
    pushMerging o rest = o :: rest := by
  cases rest with
  | nil => rfl
  | cons n more => simp [pushMerging, h n rfl]

/-- A head that is not SERVING is not put back. -/
theorem State.putBack_waiting {s : State} (h : ∀ o, s.ric.queue.head? = some o → o.state = .waiting) : s.putBack = s := by
  unfold State.putBack
  split
  · rfl
  · rename_i o rest hq
    have := h o (by rw [hq]; rfl)
    simp [this]

/-- A SERVING head is put back (R144). -/
theorem State.putBack_serving {s : State} {o : Order} {rest : List Order} (hq : s.ric.queue = o :: rest)
    (h : o.state = .serving) :
    s.putBack.ric = { s.ric with queue := pushMerging { o with state := .waiting } rest, bound := s.capture } := by
  unfold State.putBack
  simp only [hq, h, if_true]

theorem State.cutOpening_closed {s : State} (h : s.ric.opening = none) : s.cutOpening = s := by
  unfold State.cutOpening; rw [h]

/-- An open valve closes with the water delivered so far credited to the head (R130, R144). -/
theorem State.cutOpening_open {s : State} {o : Opening} {h : Order} {rest : List Order} (ho : s.ric.opening = some o)
    (hq : s.ric.queue = h :: rest) :
    s.cutOpening.ric =
      if h.requested * 1000 ≤ h.delivered + s.ric.waterSoFar s.capture then
        { s.ric with
          opening := none, contents := creditedTo h (s.ric.waterSoFar s.capture) s.ric.contents, queue := rest,
          flush := s.ric.flush && !rest.isEmpty, bound := if rest.isEmpty then s.ric.bound else s.capture }
      else
        { s.ric with
          opening := none, contents := creditedTo h (s.ric.waterSoFar s.capture) s.ric.contents,
          queue := { h with delivered := h.delivered + s.ric.waterSoFar s.capture } :: rest } := by
  unfold State.cutOpening State.credit Ric.waterSoFar
  simp only [ho, hq]
  split <;> rfl

/-- What a test of the freeze can do (R143, R144). -/
theorem State.refreeze_follows {s : State} (hq : s.ric.queueFits = true) (hv : s.ric.valveSafe = true) :
    s.ric.ordersFollow s.capture s.refreeze.ric ∧ s.refreeze.ric.windows = s.ric.windows ∧
    s.refreeze.ric.bleedTimer = s.ric.bleedTimer ∧ s.refreeze.ric.unknownTimer = s.ric.unknownTimer := by
  unfold State.refreeze
  by_cases hf : s.freezeCondition = true
  · rw [if_pos hf]
    by_cases hr : s.ric.frozen = true
    · rw [if_pos hr]
      simp [Ric.ordersFollow, hr]
    · rw [if_neg hr]
      simp only [Bool.not_eq_true] at hr
      cases hql : s.ric.queue with
      | nil =>
        have ho : s.ric.opening = none := by
          cases ho : s.ric.opening with
          | none => rfl
          | some o => simp [Ric.valveSafe, ho, hql] at hv
        rw [State.cutOpening_closed ho, State.putBack_waiting (by simp [hql])]
        simp [Ric.ordersFollow, Ric.freezesTo, hr, hql, ho]
      | cons h rest =>
        have hw : ∀ n, rest.head? = some n → n.state = .waiting := by
          intro n hn
          simp only [Ric.queueFits, hql, Bool.and_eq_true, List.tail_cons, List.all_eq_true, decide_eq_true_eq] at hq
          exact hq.1.1.2 n (List.mem_of_head? hn)
        -- the order put back, with some water delivered
        have back : ∀ (t : State) (w : Nat), t.capture = s.capture →
            t.ric = { s.ric with
              opening := none, contents := creditedTo h w s.ric.contents,
              queue := { h with delivered := h.delivered + w } :: rest } → h.state = .serving →
            ¬(s.ric.opening ≠ none ∧ h.requested * 1000 ≤ h.delivered + w) → w = s.ric.waterSoFar s.capture →
            (s.ric.ordersFollow s.capture { t.putBack.ric with frozen := true } ∧
              t.putBack.ric.windows = s.ric.windows ∧ t.putBack.ric.bleedTimer = s.ric.bleedTimer ∧
              t.putBack.ric.unknownTimer = s.ric.unknownTimer) := by
          intro t w hc ht hs hn hwe
          subst hwe
          rw [State.putBack_serving (o := { h with delivered := h.delivered + s.ric.waterSoFar s.capture })
            (rest := rest) (by rw [ht]) hs, hc]
          refine ⟨⟨fun _ _ => ⟨by simp [ht], by simp [hql], ?_⟩, by simp [hr]⟩, by simp [ht], by simp [ht], by simp [ht]⟩
          intro h' rest' he
          rw [hql, List.cons.injEq] at he
          obtain ⟨rfl, rfl⟩ := he
          dsimp only
          refine ⟨by simp [ht], fun hcm => absurd hcm hn, fun _ hh => by rw [hs] at hh; exact absurd hh (by simp), ?_⟩
          intro _ _
          refine ⟨rfl, by simp [ht], ?_, ?_⟩
          · intro hne
            apply pushMerging_apart
            intro n hnn
            have := hne n hnn
            simp only [Order.merges, Bool.and_eq_false_iff, decide_eq_false_iff_not]
            by_contra hcc
            push Not at hcc
            exact this ⟨hcc.1.1.2, hcc.1.2.symm, hcc.2.symm⟩
          · intro n more hm he
            rw [hm]
            rw [pushMerging_cons]
            · rfl
            · simp [Order.merges, he.1, he.2.1, he.2.2]
        cases ho : s.ric.opening with
        | none =>
          have hw0 : s.ric.waterSoFar s.capture = 0 := by simp [Ric.waterSoFar, ho]
          rw [State.cutOpening_closed ho]
          cases hs : h.state with
          | serving =>
            refine back s 0 rfl ?_ hs (by simp [ho]) hw0.symm
            rw [creditedTo_zero]
            rw [← ho]
            simp [← hql]
          | waiting =>
            rw [State.putBack_waiting (by rw [hql]; simp [hs])]
            refine ⟨⟨fun _ _ => ⟨ho, by simp [hql], ?_⟩, by simp [hr]⟩, rfl, rfl, rfl⟩
            intro h' rest' he
            rw [hql, List.cons.injEq] at he
            obtain ⟨rfl, rfl⟩ := he
            dsimp only
            simp [hw0, creditedTo_zero, ho, hs]
        | some o =>
          have hs : h.state = .serving := by
            simp only [Ric.valveSafe, ho, hql, Bool.and_eq_true, decide_eq_true_eq] at hv
            exact hv.1.2
          have hcut := State.cutOpening_open ho hql
          by_cases hcm : h.requested * 1000 ≤ h.delivered + s.ric.waterSoFar s.capture
          · rw [if_pos hcm] at hcut
            rw [State.putBack_waiting (by rw [hcut]; exact hw)]
            refine ⟨⟨fun _ _ => ⟨by simp [hcut], by simp [hql], ?_⟩, by simp [hr]⟩, by simp [hcut], by simp [hcut], by simp [hcut]⟩
            intro h' rest' he
            rw [hql, List.cons.injEq] at he
            obtain ⟨rfl, rfl⟩ := he
            dsimp only
            refine ⟨by simp [hcut], fun _ => by simp [hcut], fun hn => absurd ⟨by simp [ho], hcm⟩ hn,
              fun hn => absurd ⟨by simp [ho], hcm⟩ hn⟩
          · rw [if_neg hcm] at hcut
            exact back s.cutOpening _ (by simp [State.capture, State.inReset]) hcut hs (fun hx => hcm hx.2) rfl
  · rw [if_neg hf]
    by_cases hr : s.ric.frozen = true
    · rw [if_pos hr]
      simp [Ric.ordersFollow, hr]
    · rw [if_neg hr]
      simp [Ric.ordersFollow, hr]

end Sys2Proof.Machine
end

