-- ==== Sys2Proof/Laws/Plan.lean ====
section
/-! SUPPORT. What an evaluation of the grant, a derivation and a report of SPM can do to the plan, the ports and the ring. -/

namespace Sys2Proof.Machine

/-! ### Notices -/

theorem NoticeSet.has_add (n m : Notice) (v : NoticeSet) : (v.add n).has m = (decide (m = n) || v.has m) := by
  cases n <;> cases m <;> simp [NoticeSet.add, NoticeSet.has]

/-! ### What of a record no evaluation changes -/

/-- A record, an ACTIVE one without its phase and without the flags a derivation sets. -/
def Plateau.core (p : Plateau) : Plateau :=
  if p.isActive then { p with state := .active .held, derated := false, bandAdjusted := false } else p

/-- A record that is not ACTIVE is its own core. -/
theorem Plateau.core_eq {p : Plateau} (h : p.isActive = false) : p.core = p := by simp [Plateau.core, h]

@[simp] theorem Plateau.core_slot (p : Plateau) : p.core.slot = p.slot := by unfold Plateau.core; split <;> rfl
@[simp] theorem Plateau.core_target (p : Plateau) : p.core.target = p.target := by unfold Plateau.core; split <;> rfl
@[simp] theorem Plateau.core_requested (p : Plateau) : p.core.requested = p.requested := by unfold Plateau.core; split <;> rfl
@[simp] theorem Plateau.core_dwell (p : Plateau) : p.core.dwell = p.dwell := by unfold Plateau.core; split <;> rfl
@[simp] theorem Plateau.core_floor (p : Plateau) : p.core.floor = p.floor := by unfold Plateau.core; split <;> rfl
@[simp] theorem Plateau.core_elapsed (p : Plateau) : p.core.elapsed = p.elapsed := by unfold Plateau.core; split <;> rfl
@[simp] theorem Plateau.core_clamped (p : Plateau) : p.core.clamped = p.clamped := by unfold Plateau.core; split <;> rfl
@[simp] theorem Plateau.core_autoBalance (p : Plateau) : p.core.autoBalance = p.autoBalance := by unfold Plateau.core; split <;> rfl

@[simp] theorem Plateau.core_isActive (p : Plateau) : p.core.isActive = p.isActive := by
  by_cases h : p.isActive = true
  · simp only [Plateau.core, h, if_true]; rfl
  · simp [Plateau.core, h]

@[simp] theorem Plateau.core_isQueued (p : Plateau) : p.core.isQueued = p.isQueued := by
  rcases h : p.state with _ | ph | c | c <;> simp [Plateau.core, Plateau.isActive, Plateau.isQueued, h]

@[simp] theorem Plateau.core_isOver (p : Plateau) : p.core.isOver = p.isOver := by
  simp [Plateau.isOver]

/-- The core shows the state of a record that is not ACTIVE. -/
theorem Plateau.core_state {p : Plateau} (h : p.isActive = false) : p.core.state = p.state := by
  rw [Plateau.core_eq h]

theorem Plateau.core_withPhase {p : Plateau} (ph : Phase) (h : p.isActive = true) :
    (p.withPhase ph).core = p.core := by
  rcases hs : p.state with _ | q | c | c <;> simp [Plateau.core, Plateau.withPhase, Plateau.isActive, hs] at h ⊢

theorem Plateau.core_flagged (d : Derivation) {p : Plateau} (h : p.isActive = true) : (p.flagged d).core = p.core := by
  have : (p.flagged d).isActive = true := h
  simp only [Plateau.core, h, this, if_true]; rfl

/-- A change of the active record that keeps its core keeps every core. -/
theorem map_core_mapActive {f : Plateau → Plateau} (h : ∀ p : Plateau, p.isActive = true → (f p).core = p.core)
    (ps : List Plateau) : (mapActive f ps).map Plateau.core = ps.map Plateau.core := by
  unfold mapActive
  rw [List.map_map]
  apply List.map_congr_left
  intro p _
  by_cases hp : p.isActive = true
  · simp [hp, h p hp]
  · simp [hp]

/-- A field of the core is the same in two lists of the same cores. -/
theorem map_eq_of_core {α : Type} (f : Plateau → α) (hf : ∀ p : Plateau, f p.core = f p) {ps qs : List Plateau}
    (h : ps.map Plateau.core = qs.map Plateau.core) : ps.map f = qs.map f := by
  have := congrArg (List.map f) h
  simpa [List.map_map, Function.comp_def, hf] using this

/-- What is found by a test of the core is found in both of two lists of the same cores. -/
theorem find_core {t : Plateau → Bool} (ht : ∀ p : Plateau, t p.core = t p) {ps qs : List Plateau}
    (h : ps.map Plateau.core = qs.map Plateau.core) :
    (ps.find? t).map Plateau.core = (qs.find? t).map Plateau.core := by
  have hc : ∀ l : List Plateau, (l.map Plateau.core).find? t = (l.find? t).map Plateau.core := by
    intro l
    rw [List.find?_map]
    congr 2
    funext p
    exact ht p
  rw [← hc, ← hc, h]

/-! ### Evaluations, derivations and reports -/

/-- What an evaluation, a derivation or a report of SPM can do: flags and phases of ACTIVE records, the grant, posted notices,
and the change of a RUNNING plan to PAUSED with reason REBALANCE. -/
structure State.PlanOp (s t : State) : Prop where
  cores : t.spm.plateaus.map Plateau.core = s.spm.plateaus.map Plateau.core
  plan : t.spm.plan = s.spm.plan ∨ (s.spm.plan = .running ∧ t.spm.plan = .paused .rebalance)
  guard : t.spm.guard = s.spm.guard
  restartHold : t.spm.restartHold = s.spm.restartHold
  part : t.lkp.part = s.lkp.part
  quietTimer : t.lkp.quietTimer = s.lkp.quietTimer
  wakeTimer : t.lkp.wakeTimer = s.lkp.wakeTimer
  cycle : t.lkp.cycle = s.lkp.cycle
  drive : t.lkp.drive = s.lkp.drive
  notices : ∀ n, s.lkp.notices.has n = true → t.lkp.notices.has n = true

theorem State.PlanOp.refl (s : State) : s.PlanOp s :=
  ⟨rfl, Or.inl rfl, rfl, rfl, rfl, rfl, rfl, rfl, rfl, fun _ h => h⟩

theorem State.PlanOp.trans {s t u : State} (h : s.PlanOp t) (k : t.PlanOp u) : s.PlanOp u := by
  refine ⟨k.cores.trans h.cores, ?_, k.guard.trans h.guard, k.restartHold.trans h.restartHold, k.part.trans h.part,
    k.quietTimer.trans h.quietTimer, k.wakeTimer.trans h.wakeTimer, k.cycle.trans h.cycle, k.drive.trans h.drive,
    fun n hn => k.notices n (h.notices n hn)⟩
  rcases h.plan with h1 | ⟨h1, h2⟩ <;> rcases k.plan with k1 | ⟨k1, k2⟩
  · exact Or.inl (k1.trans h1)
  · exact Or.inr ⟨h1 ▸ k1, k2⟩
  · exact Or.inr ⟨h1, k1.trans h2⟩
  · exact Or.inr ⟨h1, k2⟩

theorem State.post_planOp (n : Notice) (s : State) : s.PlanOp (s.post n) := by
  refine ⟨rfl, Or.inl rfl, rfl, rfl, ?_, ?_, ?_, ?_, ?_, ?_⟩ <;> try rfl
  intro m hm
  simp [State.post, NoticeSet.has_add, hm]

theorem State.updateActive_planOp {f : Plateau → Plateau} (h : ∀ p : Plateau, p.isActive = true → (f p).core = p.core)
    (s : State) : s.PlanOp (s.updateActive f) :=
  ⟨map_core_mapActive h _, Or.inl rfl, rfl, rfl, rfl, rfl, rfl, rfl, rfl, fun _ h => h⟩

theorem State.arriveAtZero_planOp (s : State) : s.PlanOp s.arriveAtZero := by
  unfold State.arriveAtZero
  split
  · exact State.updateActive_planOp (fun p hp => Plateau.core_withPhase _ hp) s
  · exact State.PlanOp.refl s

theorem State.putGrant_planOp (g : GrantRecord) (s : State) : s.PlanOp (s.putGrant g) := by
  unfold State.putGrant
  split
  · exact State.PlanOp.refl s
  · exact ⟨rfl, Or.inl rfl, rfl, rfl, rfl, rfl, rfl, rfl, rfl, fun _ h => h⟩

theorem State.speedChanged_planOp (n : Nat) (s : State) : s.PlanOp (s.speedChanged n) := by
  unfold State.speedChanged
  split
  · exact State.PlanOp.refl s
  · exact ⟨rfl, Or.inl rfl, rfl, rfl, rfl, rfl, rfl, rfl, rfl, fun _ h => h⟩

theorem State.syncDwell_planOp (s : State) : s.PlanOp s.syncDwell :=
  ⟨rfl, Or.inl rfl, rfl, rfl, rfl, rfl, rfl, rfl, rfl, fun _ h => h⟩

theorem State.evaluateGrant_planOp (n : Nat) (s : State) : s.PlanOp (s.evaluateGrant n) :=
  (((State.putGrant_planOp _ s).trans (State.speedChanged_planOp _ _)).trans (State.arriveAtZero_planOp _)).trans
    (State.syncDwell_planOp _)

theorem State.refreshGrant_planOp (s : State) : s.PlanOp s.refreshGrant := State.evaluateGrant_planOp _ s

/-- SPM's own record may differ, in what an operation of the plan may change. -/
theorem State.planOp_of_spm {s : State} {v : Spm}
    (h1 : v.plateaus.map Plateau.core = s.spm.plateaus.map Plateau.core)
    (h2 : v.plan = s.spm.plan ∨ (s.spm.plan = .running ∧ v.plan = .paused .rebalance)) (h3 : v.guard = s.spm.guard)
    (h4 : v.restartHold = s.spm.restartHold) : s.PlanOp { s with spm := v } :=
  ⟨h1, h2, h3, h4, rfl, rfl, rfl, rfl, rfl, fun _ h => h⟩

theorem State.pauseRebalance_planOp {s : State} (h : s.spm.plan = .running) : s.PlanOp (s.pausePlan .rebalance) :=
  State.PlanOp.trans
    (State.planOp_of_spm
      (v := { s.spm with
        plan := .paused .rebalance, plateaus := mapActive (Plateau.withPhase .held) s.spm.plateaus, derived := none,
        arrival := 0, dwellTimer := none })
      (map_core_mapActive (fun _ hp => Plateau.core_withPhase _ hp) _) (Or.inr ⟨h, rfl⟩) rfl rfl)
    (State.post_planOp .planState _)

theorem State.rebalance_planOp {s : State} (h : s.spm.plan = .running) : s.PlanOp s.rebalance :=
  (State.post_planOp .rebalance s).trans
    ((State.pauseRebalance_planOp (s := s.post .rebalance) h).trans (State.evaluateGrant_planOp 0 _))

theorem State.derive_planOp (k : DerivationKind) (s : State) : s.PlanOp (s.derive k) := by
  unfold State.derive
  split
  · rename_i p hplan hact
    have hu : s.PlanOp (s.updateActive (Plateau.flagged (s.derivation p))) :=
      State.updateActive_planOp (fun _ hq => Plateau.core_flagged _ hq) s
    dsimp only
    split
    · exact hu.trans (State.rebalance_planOp hplan)
    · rename_i v _
      have hv := hu.trans (State.planOp_of_spm
        (v := { (s.updateActive (Plateau.flagged (s.derivation p))).spm with
          derived := some v, rejecting := (s.derivation p).rejecting, bandMoved := (s.derivation p).bandMoved })
        rfl (Or.inl rfl) rfl rfl)
      cases k <;> exact hv.trans (State.evaluateGrant_planOp _ _)
  · exact State.refreshGrant_planOp s

theorem State.computeCeiling_planOp (s : State) : s.PlanOp s.computeCeiling :=
  ⟨rfl, Or.inl rfl, rfl, rfl, rfl, rfl, rfl, rfl, rfl, fun _ h => h⟩

theorem State.ceilingAndGrant_planOp (s : State) : s.PlanOp s.ceilingAndGrant :=
  (State.computeCeiling_planOp s).trans (State.derive_planOp _ _)

theorem State.unforceGrant_planOp (s : State) : s.PlanOp s.unforceGrant := by
  unfold State.unforceGrant
  split
  · exact State.refreshGrant_planOp s
  · exact State.derive_planOp _ s

theorem State.withBands_planOp (bs : List Band) (s : State) : s.PlanOp (s.withBands bs) :=
  ⟨rfl, Or.inl rfl, rfl, rfl, rfl, rfl, rfl, rfl, rfl, fun _ h => h⟩

theorem State.closeSpan_planOp (s : State) : s.PlanOp s.closeSpan := by
  unfold State.closeSpan
  split
  · exact State.PlanOp.refl s
  · rename_i p _
    have h0 : s.PlanOp { s with rbt := { s.rbt with span := none } } :=
      ⟨rfl, Or.inl rfl, rfl, rfl, rfl, rfl, rfl, rfl, rfl, fun _ h => h⟩
    dsimp only
    split
    · exact h0
    · split
      · exact h0.trans (State.post_planOp _ _)
      all_goals
        exact ((h0.trans (State.withBands_planOp _ _)).trans (State.post_planOp _ _)).trans
          (State.ceilingAndGrant_planOp _)

/-- Only the ring may differ. -/
theorem State.planOp_of_ring {s t : State} (h1 : t.spm = s.spm) (h2 : t.lkp = s.lkp) : s.PlanOp t :=
  ⟨by rw [h1], Or.inl (by rw [h1]), by rw [h1], by rw [h1], by rw [h2], by rw [h2], by rw [h2], by rw [h2], by rw [h2],
    fun _ h => by rw [h2]; exact h⟩

theorem State.refreeze_planOp (s : State) : s.PlanOp s.refreeze :=
  State.planOp_of_ring (by simp) (by simp)

theorem State.planReport_planOp (s : State) : s.PlanOp s.planReport := by
  unfold State.planReport
  split
  · exact State.refreeze_planOp s
  · exact (State.closeSpan_planOp s).trans (State.refreeze_planOp _)

theorem State.changeBands_planOp (bs : List Band) (s : State) : s.PlanOp (s.changeBands bs) := by
  unfold State.changeBands
  split
  · exact State.PlanOp.refl s
  · exact ((State.withBands_planOp bs s).trans (State.ceilingAndGrant_planOp _)).trans (State.planReport_planOp _)

/-! ### The band table and the ring at a report -/

/-- With no span open a report leaves the band table. -/
theorem State.planReport_rbt {s : State} (h : s.rbt.span = none) : s.planReport.rbt = s.rbt := by
  have hc : s.closeSpan = s := by unfold State.closeSpan; rw [h]
  unfold State.planReport
  split <;> simp [hc]

/-- With no span open a report is the ring's alone. -/
theorem State.planReport_closed {s : State} (h : s.rbt.span = none) : s.planReport = s.refreeze := by
  have hc : s.closeSpan = s := by unfold State.closeSpan; rw [h]
  unfold State.planReport
  split <;> simp [hc]

/-- A ring whose frozen flag is right stays as it is. -/
theorem State.refreeze_right {s : State} (h : s.ric.frozen = s.freezeCondition) : s.refreeze = s := by
  unfold State.refreeze
  rw [← h]
  cases s.ric.frozen <;> simp

/-- The frozen flag is right after every test of the freeze. -/
theorem State.refreeze_frozen (s : State) : s.refreeze.ric.frozen = s.freezeCondition := by
  unfold State.refreeze
  split
  · split
    · simp_all
    · simp_all
  · split <;> simp_all

/-- What the freeze condition reads. -/
theorem State.freezeCondition_congr {s t : State} (h1 : t.rtb = s.rtb) (h2 : t.tmo = s.tmo) (h3 : t.cls = s.cls)
    (h4 : t.lkp.part = s.lkp.part)
    (h5 : (t.spm.plan = .paused .trip ∨ t.spm.plan = .paused .lid) ↔
      (s.spm.plan = .paused .trip ∨ s.spm.plan = .paused .lid)) :
    t.freezeCondition = s.freezeCondition := by
  rw [Bool.eq_iff_iff]
  simp only [State.freezeCondition, Bool.or_eq_true, decide_eq_true_eq]
  simp only [State.rpm, State.sinjLo, State.sinjHi, State.tripped, h1, h2, h3, h4]
  by_cases a : t.spm.plan = .paused .trip <;> by_cases b : t.spm.plan = .paused .lid <;>
    by_cases c : s.spm.plan = .paused .trip <;> by_cases d : s.spm.plan = .paused .lid <;> simp_all

/-- An operation of the plan keeps the freeze condition where RTB, TMO and the store stay. -/
theorem State.PlanOp.freezeCondition {s t : State} (h : s.PlanOp t) (h1 : t.rtb = s.rtb) (h2 : t.tmo = s.tmo)
    (h3 : t.cls = s.cls) : t.freezeCondition = s.freezeCondition := by
  apply State.freezeCondition_congr h1 h2 h3 h.part
  rcases h.plan with h4 | ⟨h4, h5⟩
  · rw [h4]
  · simp [h4, h5]

/-- A report leaves a ring whose frozen flag is right. -/
theorem State.planReport_ric {s : State} (h : s.ric.frozen = s.freezeCondition) : s.planReport.ric = s.ric := by
  unfold State.planReport
  split
  · rw [State.refreeze_right h]
  · have hf := (State.closeSpan_planOp s).freezeCondition (by simp) (by simp) (by simp)
    rw [State.refreeze_right (by simp [hf, h])]
    simp

/-- The frozen flag is right after every report. -/
theorem State.planReport_frozen (s : State) : s.planReport.ric.frozen = s.planReport.freezeCondition := by
  unfold State.planReport
  have h : ∀ u : State, u.refreeze.ric.frozen = u.refreeze.freezeCondition := by
    intro u
    rw [State.refreeze_frozen]
    exact ((State.refreeze_planOp u).freezeCondition (by simp) (by simp) (by simp)).symm
  split <;> exact h _

/-- After a report the ring is the one of before with what a change of the frozen flag makes of it. -/
theorem State.planReport_follows {s v : State} (hr : v.ric = s.ric) (hq : s.ric.queueFits = true)
    (hv : s.ric.valveSafe = true) : s.ringFollows v.planReport := by
  have key : ∀ u : State, u.ric = s.ric → u.refreeze.capture = u.capture →
      s.ric.ordersFollow u.refreeze.capture u.refreeze.ric ∧ u.refreeze.ric.windows = s.ric.windows ∧
      u.refreeze.ric.bleedTimer = s.ric.bleedTimer ∧ u.refreeze.ric.unknownTimer = s.ric.unknownTimer := by
    intro u hu hc
    rw [hc, ← hu]
    exact State.refreeze_follows (by rw [hu]; exact hq) (by rw [hu]; exact hv)
  refine ⟨State.planReport_frozen v, ?_⟩
  unfold State.planReport
  split
  · exact key v hr (by simp [State.capture, State.inReset])
  · exact key _ (by simp [hr]) (by simp [State.capture, State.inReset])

/-! ### A grant of 0 -/

/-- After an evaluation the grant speed is the one Table 6-10 gives. -/
theorem State.evaluateGrant_speed (n : Nat) (s : State) : (s.evaluateGrant n).spm.grant.speed = s.grantSpeed n := by
  have h : ∀ g : GrantRecord, (s.putGrant g).spm.grant = g := by
    intro g
    unfold State.putGrant
    split
    · rename_i h; exact h.symm
    · rfl
  have h2 : ∀ (m : Nat) (u : State), (u.speedChanged m).spm.grant = u.spm.grant := by
    intro m u; unfold State.speedChanged; split <;> rfl
  have h3 : ∀ u : State, u.arriveAtZero.spm.grant = u.spm.grant := by
    intro u; unfold State.arriveAtZero; split <;> rfl
  have h4 : ∀ u : State, u.syncDwell.spm.grant = u.spm.grant := fun _ => rfl
  unfold State.evaluateGrant
  rw [h4, h3, h2, h]
  rfl

/-- While a case forces it, every evaluation makes the grant 0. -/
theorem State.evaluateGrant_forced {s : State} (n : Nat) (h : s.grantForced = true) :
    (s.evaluateGrant n).spm.grant.speed = 0 := by
  rw [State.evaluateGrant_speed]
  unfold State.grantSpeed
  rw [if_pos h]

/-- A plan that is neither RUNNING nor in REBALANCE has a grant of 0. -/
theorem State.refreshGrant_idle {s : State} (h : s.spm.plan ≠ .running) (k : s.spm.plan ≠ .paused .rebalance) :
    s.refreshGrant.spm.grant.speed = 0 := by
  unfold State.refreshGrant
  rw [State.evaluateGrant_speed]
  unfold State.grantSpeed
  split
  · rfl
  · split <;> simp_all

/-- A derivation for a plan that is not RUNNING is an evaluation. -/
theorem State.derive_idle {s : State} (k : DerivationKind) (h : s.spm.plan ≠ .running) : s.derive k = s.refreshGrant := by
  unfold State.derive
  split
  · contradiction
  · rfl

/-- What forces a grant of 0. -/
theorem State.grantForced_congr {s t : State} (h1 : t.tmo = s.tmo) (h2 : t.spm.restartHold = s.spm.restartHold)
    (h3 : t.lkp.part = s.lkp.part) : t.grantForced = s.grantForced := by
  unfold State.grantForced State.tripped
  rw [h1, h2, h3]

/-- An operation of the plan forces nothing and ends nothing that forces. -/
theorem State.PlanOp.grantForced {s t : State} (h : s.PlanOp t) (h1 : t.tmo = s.tmo) : t.grantForced = s.grantForced :=
  State.grantForced_congr h1 h.restartHold h.part

/-- While a case forces it, every derivation makes the grant 0. -/
theorem State.derive_forced {s : State} (k : DerivationKind) (h : s.grantForced = true) :
    (s.derive k).spm.grant.speed = 0 := by
  unfold State.derive
  split
  · dsimp only
    split
    · unfold State.rebalance
      exact State.evaluateGrant_forced _ h
    · cases k <;> exact State.evaluateGrant_forced _ h
  · exact State.evaluateGrant_forced _ h

/-- While a case forces it, a grant of 0 stays through a report. -/
theorem State.planReport_forced {s : State} (h : s.grantForced = true) (h0 : s.spm.grant.speed = 0) :
    s.planReport.spm.grant.speed = 0 := by
  have hc : s.closeSpan.spm.grant.speed = 0 := by
    unfold State.closeSpan
    split
    · exact h0
    · dsimp only
      split
      · exact h0
      · split
        · exact h0
        all_goals exact State.derive_forced _ h
  unfold State.planReport
  split
  · simpa using h0
  · simpa using hc

/-! ### The end of a plateau -/

/-- An evaluation leaves the derived value. -/
theorem State.evaluateGrant_derived (n : Nat) (s : State) : (s.evaluateGrant n).spm.derived = s.spm.derived := by
  have h1 : ∀ g : GrantRecord, (s.putGrant g).spm.derived = s.spm.derived := by
    intro g; unfold State.putGrant; split <;> rfl
  have h2 : ∀ (m : Nat) (u : State), (u.speedChanged m).spm.derived = u.spm.derived := by
    intro m u; unfold State.speedChanged; split <;> rfl
  have h3 : ∀ u : State, u.arriveAtZero.spm.derived = u.spm.derived := by
    intro u; unfold State.arriveAtZero; split <;> rfl
  have h4 : ∀ u : State, u.syncDwell.spm.derived = u.spm.derived := fun _ => rfl
  unfold State.evaluateGrant
  rw [h4, h3, h2, h1]

/-- A plan that is neither RUNNING nor in REBALANCE keeps its grant of 0 through a derivation. -/
theorem State.ceilingAndGrant_idle {s : State} (h : s.spm.plan ≠ .running) (k : s.spm.plan ≠ .paused .rebalance) :
    s.ceilingAndGrant.spm.grant.speed = 0 ∧ s.ceilingAndGrant.spm.derived = s.spm.derived := by
  unfold State.ceilingAndGrant
  rw [State.derive_idle _ (by exact h)]
  exact ⟨State.refreshGrant_idle (by exact h) (by exact k), by unfold State.refreshGrant; rw [State.evaluateGrant_derived]; rfl⟩

/-- And through a report. -/
theorem State.planReport_idle {s : State} (h : s.spm.plan ≠ .running) (k : s.spm.plan ≠ .paused .rebalance)
    (h0 : s.spm.grant.speed = 0) :
    s.planReport.spm.grant.speed = 0 ∧ s.planReport.spm.derived = s.spm.derived := by
  have hc : s.closeSpan.spm.grant.speed = 0 ∧ s.closeSpan.spm.derived = s.spm.derived := by
    unfold State.closeSpan
    split
    · exact ⟨h0, rfl⟩
    · dsimp only
      split
      · exact ⟨h0, rfl⟩
      · split
        · exact ⟨h0, rfl⟩
        all_goals exact State.ceilingAndGrant_idle h k
  unfold State.planReport
  split
  · simp [h0]
  · simpa using hc

/-- What no record passes, no record of the same cores passes. -/
theorem find_none_of_core {t : Plateau → Bool} (ht : ∀ p : Plateau, t p.core = t p) {ps qs : List Plateau}
    (h : ps.map Plateau.core = qs.map Plateau.core) (hn : qs.find? t = none) : ps.find? t = none := by
  have := find_core ht h
  rw [hn] at this
  simpa using this

/-- With no ACTIVE record, lists of the same cores are the same. -/
theorem eq_of_core {ps qs : List Plateau} (h : ps.map Plateau.core = qs.map Plateau.core)
    (hn : ∀ p ∈ qs, p.isActive = false) : ps = qs := by
  have hps : ∀ p ∈ ps, p.isActive = false := by
    intro p hp
    have : p.core ∈ qs.map Plateau.core := by rw [← h]; exact List.mem_map_of_mem hp
    obtain ⟨q, hq, hc⟩ := List.mem_map.mp this
    rw [← Plateau.core_isActive, ← hc, Plateau.core_isActive, hn q hq]
  have e : ∀ l : List Plateau, (∀ p ∈ l, p.isActive = false) → l.map Plateau.core = l := by
    intro l hl
    have : l.map Plateau.core = l.map id := List.map_congr_left (fun p hp => Plateau.core_eq (hl p hp))
    rw [this, List.map_id]
  rw [e ps hps, e qs hn] at h
  exact h

/-- A plateau's end, read from the cores of the records: what `State.plateauEnds` says but for phase and flags of the record that is
made ACTIVE. -/
def State.EndsInCores (p : Plateau) (final : PlateauState) (s t : State) : Prop :=
  let ended (r : Plateau) : Plateau := if r.slot = p.slot then { p with state := final } else r
  t.lkp.notices.plateauEnd = true ∧
  match s.spm.plateaus.find? Plateau.isQueued with
  | none =>
    t.spm.plateaus = s.spm.plateaus.map ended ∧ t.spm.plan = .complete ∧ t.spm.grant.speed = 0 ∧
    t.spm.derived = none ∧ t.active = none ∧ t.lkp.notices.planState = true
  | some n =>
    t.spm.plateaus.map Plateau.core =
      (s.spm.plateaus.map (fun r =>
        if r.slot = n.slot then { n with state := .active .held, elapsed := some 0 } else ended r)).map Plateau.core ∧
    (s.spm.plan ≠ .running → t.spm.plan = s.spm.plan) ∧
    (s.spm.plan = .running → t.spm.plan = .running ∨ t.spm.plan = .paused .rebalance)

/-- A plateau's end is still to be read from the state after an operation of the plan. -/
theorem State.EndsInCores.planOp {s t u : State} {p : Plateau} {final : PlateauState}
    (h : s.EndsInCores p final t) (k : t.PlanOp u)
    (hi : t.spm.plan = .complete → t.spm.grant.speed = 0 → u.spm.grant.speed = 0 ∧ u.spm.derived = t.spm.derived) :
    s.EndsInCores p final u := by
  obtain ⟨h1, h2⟩ := h
  refine ⟨k.notices .plateauEnd h1, ?_⟩
  split
  · rename_i hn
    rw [hn] at h2
    obtain ⟨a0, a1, a2, a3, a4, a5⟩ := h2
    obtain ⟨b1, b2⟩ := hi a1 a2
    have hna : ∀ q ∈ t.spm.plateaus, q.isActive = false := by
      intro q hq
      have := List.find?_eq_none.mp a4 q hq
      simpa using this
    refine ⟨(eq_of_core k.cores hna).trans a0, ?_, b1, b2.trans a3, find_none_of_core Plateau.core_isActive k.cores a4,
      k.notices .planState a5⟩
    rcases k.plan with c | ⟨c, _⟩
    · rw [c, a1]
    · rw [a1] at c; exact absurd c (by simp)
  · rename_i n hn
    rw [hn] at h2
    obtain ⟨a0, a1, a2⟩ := h2
    refine ⟨k.cores.trans a0, ?_, ?_⟩
    · intro hr
      rcases k.plan with c | ⟨c, _⟩
      · rw [c, a1 hr]
      · exact absurd (by rw [← a1 hr]; exact c) hr
    · intro hr
      rcases k.plan with c | ⟨_, c⟩
      · rw [c]; exact a2 hr
      · exact Or.inr c

/-- A final state is neither ACTIVE nor QUEUED. -/
theorem PlateauState.over_cases {f : PlateauState} (hf : (∃ c, f = .done c) ∨ ∃ c, f = .skipped c) :
    (∀ ph, f ≠ .active ph) ∧ f ≠ .queued := by
  rcases hf with ⟨c, rfl⟩ | ⟨c, rfl⟩ <;> simp

/-- A record in a final state is neither ACTIVE nor QUEUED. -/
theorem Plateau.over_final {f : PlateauState} (hf : (∃ c, f = .done c) ∨ ∃ c, f = .skipped c) (p : Plateau) :
    ({ p with state := f } : Plateau).isActive = false ∧ ({ p with state := f } : Plateau).isQueued = false := by
  rcases hf with ⟨c, rfl⟩ | ⟨c, rfl⟩ <;> exact ⟨rfl, rfl⟩

/-- The first QUEUED record stays the first one where a record that is not QUEUED ends. -/
theorem find_queued_ended {f : PlateauState} (hf : (∃ c, f = .done c) ∨ ∃ c, f = .skipped c) {p : Plateau}
    (hp : p.isQueued = false) (ps : List Plateau) (hs : ∀ q ∈ ps, q.slot = p.slot → q = p) :
    (ps.map (fun r => if r.slot = p.slot then { p with state := f } else r)).find? Plateau.isQueued =
      ps.find? Plateau.isQueued := by
  induction ps with
  | nil => rfl
  | cons a l ih =>
    have ihl := ih (fun q hq => hs q (List.mem_cons_of_mem _ hq))
    by_cases h : a.slot = p.slot
    · have ha := hs a List.mem_cons_self h
      subst ha
      simp [(Plateau.over_final hf a).2, hp, ihl]
    · by_cases hb : a.isQueued = true
      · simp [h, hb]
      · simp [h, hb, ihl]

/-- The end of the ACTIVE plateau (R103). -/
theorem State.endActive_ends {s : State} {p : Plateau} {final : PlateauState}
    (hf : (∃ c, final = .done c) ∨ ∃ c, final = .skipped c)
    (hs : (s.spm.plateaus.map Plateau.slot).Nodup) (hp : p ∈ s.spm.plateaus) (hpa : p.isActive = true)
    (hu : ∀ q ∈ s.spm.plateaus, q.isActive = true → q = p) :
    s.EndsInCores p final (s.endActive final) := by
  have hslot : ∀ q ∈ s.spm.plateaus, q.slot = p.slot → q = p := by
    intro q hq h
    exact (List.inj_on_of_nodup_map hs) hq hp h
  have hpq : p.isQueued = false := by
    rcases h : p.state with _ | ph | c | c <;> simp [Plateau.isActive, Plateau.isQueued, h] at hpa ⊢
  let ended := s.spm.plateaus.map (fun r => if r.slot = p.slot then { p with state := final } else r)
  have hmap : mapActive (fun q => { q with state := final }) s.spm.plateaus = ended := by
    unfold mapActive
    apply List.map_congr_left
    intro q hq
    by_cases h : q.slot = p.slot
    · have := hslot q hq h; subst this; simp [hpa]
    · have : q.isActive = false := by
        by_contra hc; simp at hc; exact h (by rw [hu q hq hc])
      simp [h, this]
  have hnoact : ∀ q ∈ ended, q.isActive = false := by
    intro q hq
    obtain ⟨r, hr, rfl⟩ := List.mem_map.mp hq
    by_cases h : r.slot = p.slot
    · simp [h, (Plateau.over_final hf p).1]
    · have : r.isActive = false := by
        by_contra hc; simp at hc; exact h (by rw [hu r hr hc])
      simp [h, this]
  let v := State.post .plateauEnd (s.updateActive fun q => { q with state := final })
  have hv : v.spm.plateaus = ended := hmap
  have hvn : v.lkp.notices.plateauEnd = true := by simp [v, State.post, NoticeSet.add]
  change s.EndsInCores p final v.activateNext
  unfold State.activateNext
  rw [hv, find_queued_ended hf hpq _ hslot]
  cases hq : s.spm.plateaus.find? Plateau.isQueued with
  | none =>
    dsimp only
    unfold State.completePlan
    generalize hw : State.post .planState
      { v with spm := { v.spm with plan := .complete, derived := none, arrival := 0, dwellTimer := none } } = w
    refine State.EndsInCores.planOp (t := { w with spm := { w.spm with grant := { w.spm.grant with speed := 0 } } }) ?_ ?_ ?_
    · subst hw
      refine ⟨by simp [State.post, NoticeSet.add, hvn], ?_⟩
      rw [hq]
      refine ⟨hv, rfl, rfl, rfl, ?_, by simp [State.post, NoticeSet.add]⟩
      simp only [State.active, State.post]
      rw [List.find?_eq_none, hv]
      intro q h; simp [hnoact q h]
    · have k := State.refreshGrant_planOp w
      exact ⟨k.cores, k.plan, k.guard, k.restartHold, k.part, k.quietTimer, k.wakeTimer, k.cycle, k.drive, k.notices⟩
    · intro h _
      have hp : w.spm.plan = .complete := h
      refine ⟨State.refreshGrant_idle (by simp [hp]) (by simp [hp]), ?_⟩
      unfold State.refreshGrant; rw [State.evaluateGrant_derived]
  | some n =>
    dsimp only
    refine State.EndsInCores.planOp ?_ (State.derive_planOp _ _) ?_
    · refine ⟨hvn, ?_⟩
      rw [hq]
      refine ⟨?_, fun _ => rfl, fun h => Or.inl h⟩
      have hn : n ∈ s.spm.plateaus := List.mem_of_find?_eq_some hq
      have hnq : n.isQueued = true := List.find?_some hq
      have hnp : n.slot ≠ p.slot := by
        intro h; have := hslot n hn h; rw [this, hpq] at hnq; exact absurd hnq (by simp)
      change (activateSlot n.slot _ ended).map _ = _
      unfold activateSlot
      simp only [ended, List.map_map]
      apply List.map_congr_left
      intro r hr
      by_cases h : r.slot = p.slot
      · simp [h, hnp.symm]
      · by_cases h2 : r.slot = n.slot
        · have := (List.inj_on_of_nodup_map hs) hr hn h2
          subst this
          simp [h, Plateau.core, Plateau.isActive]
        · simp [h, h2]
    · intro h1 h2
      rw [State.derive_idle _ (by intro h; rw [h] at h1; exact absurd h1 (by simp))]
      refine ⟨State.refreshGrant_idle (by intro h; rw [h] at h1; exact absurd h1 (by simp)) (by intro h; rw [h] at h1; exact absurd h1 (by simp)), ?_⟩
      unfold State.refreshGrant; rw [State.evaluateGrant_derived]

/-- Everything of SPM and LKP that the end of a plateau leaves alone. -/
theorem State.endActive_others (final : PlateauState) (s : State) :
    (s.endActive final).spm.guard = s.spm.guard ∧ (s.endActive final).spm.restartHold = s.spm.restartHold ∧
    (s.endActive final).lkp.part = s.lkp.part ∧ (s.endActive final).lkp.quietTimer = s.lkp.quietTimer ∧
    (s.endActive final).lkp.wakeTimer = s.lkp.wakeTimer ∧ (s.endActive final).lkp.cycle = s.lkp.cycle ∧
    (s.endActive final).lkp.drive = s.lkp.drive ∧
    ((s.endActive final).spm.plan = s.spm.plan ∨ (s.endActive final).spm.plan = .complete ∨
      (s.spm.plan = .running ∧ (s.endActive final).spm.plan = .paused .rebalance)) := by
  unfold State.endActive State.activateNext
  split
  · unfold State.completePlan
    have k := State.refreshGrant_planOp (State.post .planState
        { State.post .plateauEnd (s.updateActive fun q => { q with state := final }) with
          spm := { (State.post .plateauEnd (s.updateActive fun q => { q with state := final })).spm with
            plan := .complete, derived := none, arrival := 0, dwellTimer := none } })
    refine ⟨k.guard, k.restartHold, k.part, k.quietTimer, k.wakeTimer, k.cycle, k.drive, Or.inr (Or.inl ?_)⟩
    rcases k.plan with h | ⟨h, _⟩
    · exact h
    · exact absurd h (by simp [State.post])
  · rename_i p _
    dsimp only
    have k := fun u => State.derive_planOp .fresh u
    refine ⟨(k _).guard, (k _).restartHold, (k _).part, (k _).quietTimer, (k _).wakeTimer, (k _).cycle, (k _).drive, ?_⟩
    rcases (k _).plan with h | ⟨h1, h2⟩
    · exact Or.inl h
    · exact Or.inr (Or.inr ⟨h1, h2⟩)

end Sys2Proof.Machine
end

