-- ==== Sys2Proof/Laws/Requests.lean ====
section
/-! SUPPORT. What the requests of the plan share: the record a slot names, their answer, and what they leave alone. -/

namespace Sys2Proof.Machine

/-- What a consistent plan says of its records. -/
theorem State.planConsistent_slots {s : State} (h : s.planConsistent = true) :
    (s.spm.plateaus.map Plateau.slot).Nodup ∧ (∀ p ∈ s.spm.plateaus, p.slot < 8) ∧ recordsFit s.spm.plan s.spm.plateaus = true := by
  simp only [State.planConsistent, Bool.and_eq_true, decide_eq_true_eq, List.all_eq_true] at h
  exact ⟨h.1.1.1.1, h.1.1.1.2, h.1.1.2⟩

/-- The record a slot names. -/
theorem State.plateauAt_mem {s : State} (h : (s.spm.plateaus.map Plateau.slot).Nodup) {p : Plateau} (hp : p ∈ s.spm.plateaus) :
    s.plateauAt p.slot = some p := by
  unfold State.plateauAt
  cases hf : s.spm.plateaus.find? (fun q => q.slot = p.slot) with
  | none => rw [List.find?_eq_none] at hf; simpa using hf p hp
  | some q =>
    have h1 := List.mem_of_find?_eq_some hf
    have h2 : q.slot = p.slot := by have := List.find?_some hf; simpa using this
    rw [(List.inj_on_of_nodup_map h) h1 hp h2]

/-- The answer on the cycle port. -/
theorem finish_reply (f : Frame) (u : State) (o : Outcome) (ws : List Word) (hp : f.port = .cycle) :
   (State.finish f (u.answerWith o ws)).reply .cycle = some ⟨o, ws⟩ := by
  have := State.reply_finish f (u.answerWith o ws)
  rw [hp] at this; exact this

/-- Answering keeps what the running of the plan leaves alone. -/
theorem planFrame_finish {s u : State} (f : Frame) (o : Outcome) (ws : List Word) (h : s.planFrame u) :
    s.planFrame (State.finish f (u.answerWith o ws)) := by
  have hf := State.finish_frame f ⟨u, some ⟨o, ws⟩, false⟩
  have hpart : (State.finish f ⟨u, some ⟨o, ws⟩, false⟩).lkp.part = u.lkp.part := by
    unfold State.finish; simp [State.setPort_lkp]
  unfold State.planFrame State.sameSensing State.ringFollows State.freezeCondition State.rpm State.sinjLo State.sinjHi
    State.tripped State.capture State.inReset at *
  unfold State.answerWith
  simp only [hf, hpart]
  exact h

/-- Answering keeps the end of a plateau. -/
theorem endsInCores_finish {s u : State} {p : Plateau} {fi : PlateauState} (f : Frame) (o : Outcome) (ws : List Word)
    (h : s.EndsInCores p fi u) : s.EndsInCores p fi (State.finish f (u.answerWith o ws)) := by
  have hf := State.finish_frame f ⟨u, some ⟨o, ws⟩, false⟩
  have hn : (State.finish f ⟨u, some ⟨o, ws⟩, false⟩).lkp.notices = u.lkp.notices := by
    unfold State.finish; simp [State.setPort_lkp]
  unfold State.answerWith
  unfold State.EndsInCores at *
  simp only [State.active, hf, hn] at *
  exact h

/-- What a request leaves alone of the state it finds, it leaves alone of the state before it. -/
theorem planFrame_taking {s u : State} (after : Nat) (p : Port) (h : (s.taking after p).planFrame u) : s.planFrame u := by
  have ht := State.taking_frame after p s
  have hpart : (s.taking after p).lkp.part = s.lkp.part := by simp [State.taking]
  have hr : (s.taking after p).ringSafe = s.ringSafe := by
    unfold State.ringSafe State.freezeCondition State.rpm State.sinjLo State.sinjHi State.tripped
    simp only [ht, hpart]
  unfold State.planFrame State.sameSensing State.ringFollows at *
  simp only [ht, hpart, hr] at *
  exact h

/-- What a report after a change of the plan leaves alone. -/
theorem planFrame_report {s u : State} (h1 : s.sameSensing u) (h2 : u.ibe = s.ibe) (h3 : u.spm.guard = s.spm.guard)
    (h4 : u.spm.restartHold = s.spm.restartHold) (h5 : u.lkp.part = s.lkp.part) (h6 : u.rbt = s.rbt) (h7 : u.ric = s.ric)
    (h8 : s.spm.plan ≠ .paused .trip → s.spm.plan ≠ .paused .lid → u.spm.plan ≠ .paused .trip ∧ u.spm.plan ≠ .paused .lid) :
    s.planFrame u.planReport := by
  have k := State.planReport_planOp u
  unfold State.planFrame State.sameSensing at *
  refine ⟨by simpa using h1, by simpa using h2, k.guard.trans h3, k.restartHold.trans h4, k.part.trans h5, ?_, ?_⟩
  · intro hs; rw [State.planReport_rbt (by rw [h6, hs]), h6]
  · intro hs
    simp only [State.ringSafe, Bool.and_eq_true, decide_eq_true_eq] at hs
    refine ⟨State.planReport_follows h7 hs.1.2 hs.2, fun ht hl => ?_⟩
    have hf : s.ric.frozen = s.freezeCondition := hs.1.1
    have hc : u.freezeCondition = s.freezeCondition := by
      apply State.freezeCondition_congr h1.1 h1.2.2.1 h1.2.2.2.1 h5
      have := h8 ht hl
      simp [ht, hl, this]
    rw [State.planReport_ric (by rw [h7, hf, hc]), h7]

/-- What the end of a plateau and its report leave alone. -/
theorem endReport_frame {s : State} (final : PlateauState) : s.planFrame (s.endActive final).planReport := by
  obtain ⟨a1, a2, a3, -, -, -, -, a4⟩ := State.endActive_others final s
  apply planFrame_report (by simp [State.sameSensing]) (by simp) a1 a2 a3 (by simp) (by simp)
  intro ht hl
  rcases a4 with h | h | ⟨_, h⟩ <;> rw [h] <;> simp [*]

/-- The end of a plateau after its report. -/
theorem endReport_ends {s : State} {p : Plateau} {final : PlateauState}
    (hf : (∃ c, final = .done c) ∨ ∃ c, final = .skipped c)
    (hs : (s.spm.plateaus.map Plateau.slot).Nodup) (hp : p ∈ s.spm.plateaus) (hpa : p.isActive = true)
    (hu : ∀ q ∈ s.spm.plateaus, q.isActive = true → q = p) :
    s.EndsInCores p final (s.endActive final).planReport := by
  refine State.EndsInCores.planOp (State.endActive_ends hf hs hp hpa hu) (State.planReport_planOp _) ?_
  intro h1 h2
  exact State.planReport_idle (by rw [h1]; simp) (by rw [h1]; simp) h2

/-- The end of a plateau, of the state before the request. -/
theorem endsInCores_taking {s u : State} {p : Plateau} {fi : PlateauState} (after : Nat) (q : Port)
    (h : (s.taking after q).EndsInCores p fi u) : s.EndsInCores p fi u := by
  have ht := State.taking_frame after q s
  unfold State.EndsInCores at *
  simp only [ht] at *
  exact h

end Sys2Proof.Machine
end

