-- ==== Sys2Proof/Laws/Part.lean ====
section
/-! SUPPORT. What a change of part state does, and the request rows as frames at their owners. -/

namespace Sys2Proof.Machine

/-! ### The part state -/

/-- Freeing the latch posts at most a notice. -/
theorem State.discardLatch_lkp (s : State) :
    s.discardLatch.lkp.part = s.lkp.part ∧ s.discardLatch.lkp.quietTimer = s.lkp.quietTimer ∧
    s.discardLatch.lkp.wakeTimer = s.lkp.wakeTimer ∧ s.discardLatch.lkp.cycle = s.lkp.cycle ∧
    s.discardLatch.lkp.drive = s.lkp.drive ∧
    ∀ n, s.lkp.notices.has n = true → s.discardLatch.lkp.notices.has n = true := by
  rcases hl : s.ibe.latch with _ | ⟨k, q, g⟩ | ⟨k, q, e, r, d⟩
  · simp [State.discardLatch, hl]
  all_goals
    cases q
    · simp only [State.discardLatch, hl, State.postFor, State.post]
      exact ⟨trivial, trivial, trivial, trivial, trivial, fun n hn => by simp [NoticeSet.has_add, hn]⟩
    · simp only [State.discardLatch, hl, State.postFor]
      exact ⟨trivial, trivial, trivial, trivial, trivial, fun n hn => hn⟩

/-- CSM's part of a change leaves LKP. -/
theorem State.samplerPart_lkp (a b : PartState) (s : State) : (s.samplerPart a b).lkp = s.lkp := by
  simp

/-- A change of part state: the part, its timers, its ports, no notice lost, the frozen flag right, and a grant of 0 in every
part state but RUN. -/
theorem State.setPart_spec (p : PartState) (s : State) :
    (s.setPart p).lkp.part = p ∧ (s.setPart p).lkp.quietTimer = s.lkp.quietTimer ∧
    (s.setPart p).lkp.wakeTimer = s.lkp.wakeTimer ∧ (s.setPart p).lkp.cycle = s.lkp.cycle ∧
    (s.setPart p).lkp.drive = s.lkp.drive ∧
    (∀ n, s.lkp.notices.has n = true → (s.setPart p).lkp.notices.has n = true) ∧
    (s.setPart p).ric.frozen = (s.setPart p).freezeCondition ∧
    (p ≠ .run → (s.setPart p).spm.grant.speed = 0) := by
  unfold State.setPart
  dsimp only
  generalize hv : State.samplerPart s.lkp.part p { s with lkp := { s.lkp with part := p } } = v
  have hvl : v.lkp = { s.lkp with part := p } := by rw [← hv, State.samplerPart_lkp]
  generalize hu : (if p = .quiet then v.discardLatch else v) = u
  have hul : u.lkp.part = p ∧ u.lkp.quietTimer = s.lkp.quietTimer ∧ u.lkp.wakeTimer = s.lkp.wakeTimer ∧
      u.lkp.cycle = s.lkp.cycle ∧ u.lkp.drive = s.lkp.drive ∧
      ∀ n, s.lkp.notices.has n = true → u.lkp.notices.has n = true := by
    rw [← hu]
    split
    · have := State.discardLatch_lkp v
      rw [hvl] at this
      exact this
    · rw [hvl]; exact ⟨rfl, rfl, rfl, rfl, rfl, fun _ h => h⟩
  have hk : u.PlanOp (if p = .run then u.unforceGrant else u.refreshGrant) := by
    split
    · exact State.unforceGrant_planOp u
    · exact State.refreshGrant_planOp u
  have k := hk.trans (State.planReport_planOp _)
  refine ⟨k.part.trans hul.1, k.quietTimer.trans hul.2.1, k.wakeTimer.trans hul.2.2.1, k.cycle.trans hul.2.2.2.1,
    k.drive.trans hul.2.2.2.2.1, fun n hn => k.notices n (hul.2.2.2.2.2 n hn), State.planReport_frozen _, ?_⟩
  intro hp
  rw [if_neg hp]
  have hf : u.grantForced = true := by unfold State.grantForced; simp [hul.1, hp]
  exact State.planReport_forced (by rw [(State.refreshGrant_planOp u).grantForced (by simp)]; exact hf)
    (State.evaluateGrant_forced _ hf)

/-! ### Request rows -/

/-- A request row of the table is the receipt of its frame by the owner that its kind, class and key name. -/
theorem exec_request {i : Instr} {after : Nat} {f : Frame} (h : requestFrame i = some (after, f))
    (hw : i.wellFormed = true) (s : State) : exec i s = .next ((s.elapse after).deliver (ownerOf f) f) := by
  cases i <;> simp only [requestFrame, Option.some.injEq, Prod.mk.injEq, reduceCtorEq] at h
  all_goals (obtain ⟨rfl, rfl⟩ := h)
  all_goals (try rfl)
  all_goals
    simp [Instr.wellFormed] at hw
    simp [exec, execLookupEstimate, execLookupEstimateDelayed, received, ownerOf, frameOf, lookupOwner, hw]

end Sys2Proof.Machine
end

