-- ==== Sys2Proof/Laws/Store.lean ====
section
/-! SUPPORT. The store: blank words, ranges, cross checks and the load of an item, in the words of Safety.lean. -/

namespace Sys2Proof.Machine

theorem isBlank_iff (ws : List Word) : isBlank ws = true ↔ allBlank ws := by
  simp only [isBlank, allBlank, List.all_eq_true, decide_eq_true_eq]
  exact Iff.rfl

theorem specOf_num {n : Nat} {spec : ItemSpec} (h : specOf n = some spec) : spec.num = n ∧ spec ∈ itemSpecs :=
  ⟨by simpa using List.find?_some h, List.mem_of_find?_eq_some h⟩

/-- The numbers and word counts of the items. -/
theorem itemSpecs_shape : ∀ spec ∈ itemSpecs,
    (spec.words = 1 ∧ spec.num ∈ [1, 2, 3, 4, 5, 10, 11, 12, 13, 14, 15, 16, 17, 18, 19, 20, 21, 22, 23, 24, 25, 26, 28]) ∨
    (spec.words = 4 ∧ spec.num = 6) ∨ (spec.words = 16 ∧ spec.num ∈ [30, 31, 32, 33, 34, 35, 36, 37]) ∨
    (spec.words = 3 ∧ spec.num ∈ [27, 38, 39]) := by decide +kernel

/-- The range of an item, as Tables 10-2 and 10-3 list it. -/
theorem inRange_iff {n : Nat} {spec : ItemSpec} {ws : List Word} (h : specOf n = some spec)
    (len : ws.length = spec.words) : inRange n ws = true ↔ wordsInRange n ws := by
  obtain ⟨rfl, mem⟩ := specOf_num h
  clear h
  rcases itemSpecs_shape spec mem with ⟨e, num⟩ | ⟨e, num⟩ | ⟨e, num⟩ | ⟨e, num⟩ <;> rw [e] at len <;> clear e mem
  · obtain ⟨w, rfl⟩ := List.length_eq_one_iff.1 len
    generalize spec.num = n at *
    fin_cases num <;> simp [inRange, wordsInRange, wordRange, between, wordAt]
  · rw [num]
    simp [inRange, wordsInRange]
    exact Iff.rfl
  · generalize spec.num = n at *
    fin_cases num <;> simp [inRange, wordsInRange, between]
  · obtain ⟨a, b, c, rfl⟩ := List.length_eq_three.1 len
    generalize spec.num = n at *
    fin_cases num <;> simp [inRange, wordsInRange, between, bandWordsFit, wordAt, isBlank_iff, and_assoc]

theorem bandClears_iff (sdist : Nat) (ws : List Word) :
    bandClears sdist ws = true ↔ allBlank ws ∨ sdist + 30 ≤ wordAt ws 0 := by
  simp [bandClears, isBlank_iff]

/-- The cross checks of a write whose words are within their item's range. -/
theorem Cls.crossOk_iff (c : Cls) {n : Nat} {ws : List Word} (fits : wordsInRange n ws) :
    c.crossOk n ws = true ↔ c.crossChecks n ws := by
  unfold Cls.crossOk Cls.crossChecks
  split
  · simp
  · simp
  · simp
  · simp [bandClears_iff]
  · have notBlank : ¬ allBlank ws := by
      intro blank
      obtain ⟨lt, le, -⟩ : wordAt ws 0 < wordAt ws 1 ∧ wordAt ws 1 ≤ 1200 ∧ _ := by simpa [wordsInRange] using fits
      match ws, blank with
      | [], _ => simp [wordAt] at lt
      | [_], _ => simp [wordAt] at lt
      | a :: b :: _, blank =>
        have := blank b (by simp)
        simp [wordAt, this] at le
    simp [bandClears_iff, notBlank]
  · simp [bandClears_iff]
  · rename_i h15 h16 h17 h14 h38 h39
    exact ⟨fun _ => ⟨fun e => absurd e h15, fun e => absurd e h16, fun e => absurd e h17, fun e => absurd e h14,
      fun e => absurd e h38, fun e => absurd e h39⟩, fun _ => rfl⟩
/-- The load of an item, by its source (R179). -/
theorem Item.loadsAs_resolve {i : Item}
    (fits : ∀ spec, specOf i.num = some spec → i.stored.length = spec.words) : i.loadsAs i.resolve := by
  unfold Item.loadsAs Item.resolve
  split
  · next e => exact ⟨rfl, rfl, rfl, fun spec h => absurd (e.symm.trans h) (by simp)⟩
  · next spec e =>
    refine ⟨rfl, rfl, rfl, fun spec' h => ?_⟩
    obtain rfl : spec = spec' := Option.some.inj (e.symm.trans h)
    have num := (specOf_num e).1
    have range := inRange_iff e (fits spec e)
    have blank := isBlank_iff i.stored
    have blankable : (spec.fixed || decide (spec.num = 39)) = true ↔ spec.fixed = true ∨ i.num = 39 := by
      simp only [Bool.or_eq_true, decide_eq_true_eq, num]
    rw [← range, ← blank, ← blankable, ← num]
    simp only [classify]
    by_cases b : isBlank i.stored = true
    · by_cases x : (spec.fixed || decide (spec.num = 39)) = true <;> simp only [b, x] <;> simp
    · by_cases y : (i.checkOk && inRange spec.num i.stored) = true
      · have := Bool.and_eq_true_iff.1 y
        simp only [b, this]; simp
      · have : ¬(i.checkOk = true ∧ inRange spec.num i.stored = true) := fun k => y (Bool.and_eq_true_iff.2 k)
        simp only [b, y, this]; simp

end Sys2Proof.Machine
end

