-- ==== Sys2Proof/Tests/Slice0.lean ====
section
/-! SUPPORT. The model's own tests: ill-formed commands that the check refuses, the spec's worked examples, and for every
statement with hypotheses a state and operands that meet them, with the boundary values of its clauses. -/

namespace Sys2Proof.Tests

open Sys2Proof.Machine

-- One theorem after another: each thread of Lean reserves its stack from the memory limit of the check.
set_option Elab.async false

/-! ### Helpers -/

/-- The next state, if there is one. -/
def nextOf (o : Host.Outcome State Fault Refusal) : Option State :=
  match o with
  | .next t => some t
  | .fault _ => none
  | .refused _ => none

def req (key : Word) (ps : List Word) : Request := ⟨.cycle, 1#8, key, ps⟩

def com (ps : List Word) : CommandRequest := ⟨.cycle, 1#8, ps⟩

def driveReq (key : Word) : Request := ⟨.drive, 1#8, key, []⟩

/-- A new part after start-up, in RUN. -/
def started : State := { State.reset with startUp := none, lkp := { State.reset.lkp with part := .run } }

/-- With the lid locked and restart hold off. -/
def ready : State :=
  { started with
    tmo := { started.tmo with lid := true }
    spm := { started.spm with restartHold := false, grant := ⟨0, .normal, defaultedCeiling, none, .none⟩ }
    lkp := { started.lkp with image := ⟨0, .normal, defaultedCeiling, none, .none⟩ } }

def plateau (slot target dwell : Nat) (st : PlateauState) : Plateau :=
  { slot := slot, requested := target, target := target, dwell := dwell, floor := none, autoBalance := false,
    state := st, elapsed := if st = .queued then none else some 0, clamped := false, derated := false,
    bandAdjusted := false }

def withPlan (plan : PlanState) (ps : List Plateau) (s : State) : State :=
  { s with spm := { s.spm with
      plan := plan, plateaus := ps, derived := if plan = .running then some 0 else none } }

def loaded : State := withPlan .loaded [plateau 0 50 20 .queued, plateau 3 60 0 .queued] ready

def running : State := withPlan .running [plateau 0 50 20 (.active .ramping), plateau 3 60 0 .queued] ready

def paused : State := withPlan (.paused .partner) [plateau 0 50 20 (.active .held), plateau 3 60 0 .queued] ready

def finished : State := withPlan .complete [plateau 0 50 20 (.done .expired)] ready

/-- The store with every item STORED, so not DEFAULTED. -/
def stored (s : State) : State :=
  { s with cls := { s.cls with items := s.cls.items.map (fun i => { i with source := .stored }) } }

def unlocked (s : State) : State := { s with cls := { s.cls with unlocked := true } }

def withQueue (q : List Order) (s : State) : State :=
  { s with ric := { s.ric with queue := q, contents := some (Four.all 0) } }

def order (j : Fin 4) (grams : Nat) : Order := ⟨j, grams, 0, .partner, .waiting, false⟩

def tripped (s : State) : State :=
  { s with tmo := { s.tmo with first := some .strike, causes := CauseSet.none.add .strike } }

def withBandsOf (bs : List Band) (s : State) : State := { s with rbt := { s.rbt with bands := bs } }

def band (id lower upper : Nat) (o : Origin) : Band := ⟨id, lower, upper, 100, o, 0, false, false⟩

/-- Item 1 being programmed, the CAL_WRITE's answer held back or, unlike on the part, sent already. -/
def programmingOne (answer : Option Answer) : State :=
  { started with
    cls := { started.cls with programming := some ⟨1, [5#16]⟩ }
    lkp := { started.lkp with cycle := { started.lkp.cycle with
      inProgress := some ⟨⟨1#8, 10#8, 10#8⟩, answer, false⟩ } } }

/-- One item's value in force. -/
def withItem (n : Nat) (w : Word) (s : State) : State :=
  { s with cls := { s.cls with items := s.cls.items.map (fun i => if i.num = n then { i with held := [w] } else i) } }

/-- The grant record evaluated for the grant in force, and shown in the image. -/
def shown (s : State) : State :=
  let g := s.grantRecord s.spm.grant.speed
  { s with spm := { s.spm with grant := g }, lkp := { s.lkp with image := g } }

/-! ### Commands that are not of the table -/

theorem test_seventeen_parameters_are_refused :
    (Instr.lookupPlan 0 (req 0 (List.replicate 17 0#16))).wellFormed = false ∧
    (Instr.start 0 (com (List.replicate 17 0#16))).wellFormed = false ∧
    (Instr.inject 0 (req 0 (List.replicate 16 0#16))).wellFormed = true := by decide

theorem test_a_block_named_twice_is_refused :
    (Instr.indexEdge 0 true [.spm, .rbt, .spm]).wellFormed = false ∧
    (Instr.restTimerExpiry [.ric, .ric]).wellFormed = false ∧
    (Instr.restTimerExpiry [.ric, .rbt]).wellFormed = true := by decide

theorem test_estimate_keys_tell_the_two_rows_apart :
    (Instr.lookupEstimate 0 (req 1 [])).wellFormed = false ∧
    (Instr.lookupEstimate 0 (req 2 [])).wellFormed = false ∧
    (Instr.lookupEstimateDelayed 0 (req 0 [])).wellFormed = false ∧
    (Instr.lookupEstimateDelayed 0 (req 3 [])).wellFormed = false ∧
    (Instr.lookupEstimate 0 (req 3 [])).wellFormed = true ∧
    (Instr.lookupEstimateDelayed 0 (req 2 [])).wellFormed = true := by decide

/-! ### The spec's worked examples -/

theorem test_worked_magnitude_and_angle :
    magnitude ⟨3000, 1200⟩ = 3231 ∧ magnitude ⟨3025, 1225⟩ = 3264 ∧ magnitude ⟨3004, 1204⟩ = 3236 ∧
    angleOf ⟨3000, 1200⟩ = 16 ∧ angleOf ⟨3004, 1204⟩ = 16 ∧ angleOf ⟨0, 5⟩ = 64 ∧ angleOf ⟨-5, 0⟩ = 128 ∧
    angleOf ⟨0, -5⟩ = 192 ∧ angleOf ⟨5, 5⟩ = 32 ∧ angleOf ⟨0, 0⟩ = 0 := by decide +kernel

def workedReceptance : List Word :=
  [300#16, 700#16, 2600#16, 1500#16, 1000#16, 820#16, 720#16, 660#16, 630#16, 610#16, 600#16, 590#16, 585#16, 580#16,
   578#16, 576#16]

def workedLag : List Word :=
  [0#16, 8#16, 64#16, 150#16, 160#16, 166#16, 170#16, 172#16, 174#16, 175#16, 176#16, 176#16, 177#16, 177#16, 177#16,
   177#16]

theorem test_table_3_2 :
    interpolateReceptance workedReceptance 110 = 1412 ∧ interpolateReceptance workedReceptance 290 = 1188 ∧
    interpolateReceptance workedReceptance 300 = 1125 ∧ interpolateReceptance workedReceptance 1000 = 583 ∧
    interpolateLag workedLag 110 = 29 ∧ interpolateLag workedLag 300 = 157 ∧
    interpolateLag [250#16, 10#16] 40 = 2 ∧ interpolateLag [10#16, 250#16] 60 = 254 ∧
    interpolateLag [0#16, 128#16] 40 = 192 := by decide +kernel

theorem test_table_5_3 :
    forceLimit 0 22000 100 = 1200 ∧ forceLimit 288 22000 100 = 1200 ∧ forceLimit 288 22000 80 = 1159 ∧
    forceLimit 300 22000 80 = 1136 ∧ forceLimit 400 22000 100 = 1100 ∧ forceLimit 401 22000 100 = 1098 ∧
    forceLimit 600 22000 80 = 803 ∧ forceLimit 9999 22000 100 = 220 ∧ forceLimit 9999 22000 80 = 196 := by
  decide +kernel

/-- Where nothing limits, the 1200 of stage C gives SMAX (R83, log 34). -/
theorem test_ceiling_of_1200 :
    ceilingOf 1200 none 1200 60 false .normal = ⟨1200, .smax, none⟩ ∧
    ceilingOf 1199 none 1200 60 false .normal = ⟨1199, .force, none⟩ := by decide +kernel

theorem test_table_7_8 :
    [0, 8, 16, 19, 24, 32, 40, 45, 48, 56, 64].map qt = [0, 200, 392, 460, 569, 724, 851, 915, 946, 1004, 1024] := by
  decide +kernel

theorem test_worked_allocation : allocate 287 115 = ⟨3, 256, 0, 129⟩ := by decide +kernel

theorem test_worked_frame :
    checkOf [0x03#8, 0x02#8, 0x02#8, 0x04#8, 0#8, 0#8, 0x01#8, 0x90#8, 0x02#8, 0x58#8, 0xFF#8, 0xFF#8, 0#8, 1#8] =
      0xFD0A#16 ∧
    frameBytes ⟨.cycle, 3#8, 2#8, 2#8, 0#16, [400#16, 600#16, 0xFFFF#16, 1#16]⟩ =
      [0x03#8, 0x02#8, 0x02#8, 0x04#8, 0#8, 0#8, 0x01#8, 0x90#8, 0x02#8, 0x58#8, 0xFF#8, 0xFF#8, 0#8, 1#8, 0xFD#8,
        0x0A#8] ∧
    answerBytes ⟨3#8, 2#8, 2#8⟩ ⟨.done, [2#16]⟩ =
      [0x03#8, 0x02#8, 0x02#8, 0#8, 1#8, 0#8, 2#8, 0xFF#8, 0xF5#8] := by decide +kernel

/-- The worked machine's table after start-up (Table 4-3). -/
def workedBand : Band := ⟨0, 130, 250, 2800, .calibrated, 0, false, false⟩

theorem test_table_4_3 :
    placeBand ⟨0, 400, 480, 900, .declared, 0, false, false⟩ [workedBand] =
      ([workedBand, ⟨1, 400, 480, 900, .declared, 0, false, false⟩], .placed 1) ∧
    placeBand ⟨0, 265, 330, 1200, .declared, 0, false, false⟩ [workedBand] =
      ([⟨0, 130, 330, 2800, .calibrated, 1, false, true⟩], .merged 0) ∧
    placeBand ⟨0, 271, 330, 1200, .declared, 0, false, false⟩ [workedBand] =
      ([workedBand, ⟨1, 271, 330, 1200, .declared, 0, false, false⟩], .placed 1) ∧
    placeBand ⟨0, 200, 240, 3500, .declared, 0, false, false⟩ [workedBand] =
      ([⟨0, 130, 250, 3500, .calibrated, 1, false, true⟩], .merged 0) := by decide +kernel

/-- The merge chain of Table 4-5. -/
theorem test_table_4_5 :
    placeBand ⟨0, 580, 622, 1010, .learned, 0, false, false⟩
      [workedBand, ⟨1, 542, 596, 1145, .learned, 0, true, false⟩, ⟨2, 620, 700, 900, .declared, 0, false, false⟩] =
      ([workedBand, ⟨1, 542, 700, 1145, .declared, 1, false, false⟩], .merged 1) := by decide +kernel

/-- The ceiling of the worked machine at a speed, imbalance, guard level and DEGRADED mark. -/
def workedCeiling (speed u : Nat) (g : GuardLevel) (degraded : Bool) (bs : List Band) : Ceiling :=
  ceilingOf (forceLimit u 22000 g.factor) (limitingBand bs speed u 9000 g.factor) 1100 80 degraded g

def twoBands : List Band := [workedBand, ⟨1, 542, 596, 1145, .learned, 0, false, false⟩]

theorem test_table_5_7 :
    workedCeiling 80 300 .normal false [workedBand] = ⟨1100, .smax, none⟩ ∧
    workedCeiling 80 300 .tight false [workedBand] = ⟨110, .band, some 0⟩ ∧
    workedCeiling 190 330 .normal false [workedBand] = ⟨110, .band, some 0⟩ ∧
    workedCeiling 250 330 .normal false [workedBand] = ⟨1100, .smax, none⟩ ∧
    workedCeiling 300 401 .normal false [workedBand] = ⟨1098, .force, none⟩ ∧
    workedCeiling 300 800 .normal false twoBands = ⟨522, .band, some 1⟩ ∧
    workedCeiling 300 288 .normal true [workedBand] = ⟨400, .degraded, none⟩ ∧
    workedCeiling 80 300 .test false [workedBand] = ⟨300, .test, none⟩ ∧
    workedCeiling 600 800 .normal false twoBands = ⟨777, .force, none⟩ ∧
    ceilingOf (forceLimit 1000 5000 80) none 400 150 false .tight = ⟨150, .floor, none⟩ := by decide +kernel

/-- Table 7-11, revolution 57: 4,000 mg left at 120 g/s close the valve after 33,333 µs; a full window gives 4,500 mg. -/
theorem test_worked_openings :
    openingFor 120 (windowOf 0 120 0 200000 3) ⟨3, 256, 252000, .auto, .serving, false⟩ =
      ⟨3, 156250, 33333, .early, 4000, 120⟩ ∧
    openingFor 120 (windowOf 0 120 0 200000 3) ⟨3, 256, 0, .auto, .waiting, false⟩ =
      ⟨3, 156250, 37500, .full, 4500, 120⟩ ∧
    (windowOf 0 120 0 200000 3).starts = 150000 := by decide +kernel

/-- With F halved between the completion and the open instant, a FULL opening credits the D of its set, at most what is owed
(log 37). -/
theorem test_full_opening_after_a_smaller_flow :
    openingFor 60 (windowOf 0 120 0 200000 3) ⟨3, 256, 252500, .auto, .serving, false⟩ =
      ⟨3, 156250, 37500, .full, 3500, 60⟩ ∧
    openingFor 60 (windowOf 0 120 0 200000 3) ⟨3, 256, 251000, .auto, .serving, false⟩ =
      ⟨3, 156250, 37500, .full, 4500, 60⟩ := by decide +kernel

/-- The widest grams and mg that an order's record can hold, and the first number that no word holds (log 39). -/
theorem test_fields_of_an_order_record :
    unboundedWord 65535 = 0xFFFF#16 ∧ unboundedWord 65536 = Config.overgrownWord 0 65536 ∧
    unboundedLong 4294967295 = [0xFFFF#16, 0xFFFF#16] ∧
    unboundedLong 4294967296 = [Config.overgrownWord 0 4294967296, Config.overgrownWord 1 4294967296] := by
  simp [unboundedWord, unboundedLong, longWords, word]

/-- A smoothing step of Table 3-7, revolutions 3 and 4. -/
theorem test_table_3_7_smoothing :
    smoothStep .normal ⟨3025, 1225⟩ ⟨2950, 1150⟩ = ⟨3006, 1206⟩ ∧
    smoothStep .normal ⟨3006, 1206⟩ ⟨3000, 1200⟩ = ⟨3004, 1204⟩ := by decide +kernel

/-- The power-on reset of a new part ends in the state after reset. -/
theorem test_power_on_then_its_timer_give_the_reset_state :
    (nextOf (exec (.powerOn 0 0) State.reset)).bind (fun t => nextOf (exec .resetTimerExpiry t)) =
      some State.reset := by decide +kernel

/-! ### Every statement with hypotheses has a state that meets them -/

theorem test_witness_StepTakesFrontCommand_and_StepOnEmptyQueueIdles :
    ({ State.reset with pending := [.bleedTick, .dwellTick] } : State).pending = .bleedTick :: [.dwellTick] ∧
    State.reset.pending = [] := by decide

theorem test_witness_ResetsHoldEveryBlock_and_EndOfReset :
    State.reset.rst.resetN = false ∧ State.reset.cls.programming = none ∧
    ({ State.reset with rst := ⟨some 7, true⟩ } : State).rst = ⟨some 7, true⟩ ∧
    ({ State.reset with rst := ⟨some 7, false⟩ } : State).rst = ⟨some 7, false⟩ ∧
    ({ State.reset with rst := ⟨none, true⟩ } : State).rst = ⟨none, true⟩ ∧
    ({ State.reset with rst := ⟨none, true⟩ } : State).rst.resetN = true ∧
    (programmingOne none).cls.programming = some ⟨1, [5#16]⟩ := by decide

theorem test_witness_EndOfReset_store :
    State.reset.cls.storeFits = true ∧ (stored started).cls.storeFits = true := by decide +kernel

/-- The band items that a load takes begin at Sdist + 30 or above: Sdist is 60. -/
theorem test_valid_bands :
    validBand 60 [90#16, 91#16, 1#16] ∧ ¬ validBand 60 [89#16, 91#16, 1#16] ∧ ¬ validBand 60 [90#16, 90#16, 1#16] ∧
    validBand 60 [90#16, 1200#16, 9999#16] ∧ ¬ validBand 60 [90#16, 1201#16, 1#16] ∧
    ¬ validBand 60 [90#16, 91#16, 0#16] ∧ ¬ validBand 60 [90#16, 91#16, 10000#16] := by
  unfold validBand
  decide +kernel

def startingAt (measured : Nat) : State := { State.reset with rtb := { State.reset.rtb with measured := measured } }

theorem test_witness_StartUpEndsInRun :
    (startingAt 299).startUp = some 20000 ∧ (startingAt 299).inReset = false ∧
    (startingAt 299).lkp.part = .starting ∧ (startingAt 299).rpm < 30 ∧
    (startingAt 300).startUp = some 20000 ∧ (startingAt 300).inReset = false ∧
    (startingAt 300).lkp.part = .starting ∧ 30 ≤ (startingAt 300).rpm ∧
    (startingAt 300).spm.restartHold = true := by decide +kernel

/-- A run under way, its last edge at 0. -/
def inRun (s : State) : State :=
  { s with rtb := { s.rtb with lastIndex := some 0, runEdges := 1, atRest := false } }

theorem test_witness_NoiseEdgesAreIgnored :
    State.reset.inReset = false ∧ false ≠ State.reset.risingSelected ∧
    (inRun started).inReset = false ∧ (inRun started).rtb.lastIndex = some 0 ∧
    sub24 ((inRun started).elapse 19999).capture 0 < 20000 ∧ sub24 ((inRun started).elapse 0).capture 0 < 20000 := by
  decide +kernel

theorem test_witness_FirstEdgeOpensARun_and_ClosingEdge :
    State.reset.inReset = false ∧ State.reset.rtb.lastIndex = none ∧ (inRun started).inReset = false ∧
    (inRun started).rtb.lastIndex = some 0 ∧ 20000 ≤ sub24 ((inRun started).elapse 20000).capture 0 ∧
    20000 ≤ sub24 ((inRun started).elapse 16777215).capture 0 := by decide +kernel

def corner (ch : Channel) (x y : Int) : Corner := ⟨ch, ⟨.none, 0⟩, x * 16384 / 50, y * 16384 / 50, 0, 0⟩

/-- A revolution of 200 ms closes at this instant with `conv` conversions, after one like it. -/
def closing (conv : Nat) (cs : Four Corner) (s : State) : State :=
  { s with
    time := 200000
    rtb := { s.rtb with
      lastIndex := some 0, runEdges := 2, p := some 200000, pPrev := some 200000, measured := 3000, speedState := .turning,
      atRest := false, revolution := .scheduled 32, lastCompletion := some .accepted }
    csm := { s.csm with conversions := conv, corners := cs } }

/-- A running plan on its way from 300 rpm to a target, its last settled imbalance `u`. -/
def ramping (conv : Nat) (cs : Four Corner) (u target : Nat) (s : State) : State :=
  let t := withBandsOf [] (withPlan .running [{ plateau 0 target 20 (.active .ramping) with autoBalance := true }] (closing conv cs s))
  { t with
    ibe := { t.ibe with
      est := .valid, settle := 4, orbit := some ⟨1500, 0⟩, smooth := some ⟨1500, 0⟩, restartSpeed := some 300,
      countedSpeed := some 300, uLast := some u }
    spm := { t.spm with
      derived := some target, grant := ⟨target, .normal, ⟨1200, .smax, none⟩, some 0, .none⟩, ceiling := ⟨1200, .smax, none⟩ } }

/-- The premises of the clauses on the estimate, the trips, learning and arrival, in a full revolution of four good corners. -/
theorem test_witness_ClosingEdge_blocks :
    (let s := closing 32 (Four.all (corner .ok 1500 0)) ready;
      s.inReset = false ∧ s.rtb.lastIndex = some 0 ∧ 20000 ≤ sub24 (s.elapse 0).capture 0 ∧ s.lkp.part = .run ∧
      s.causesConsistent = true ∧ s.csm.conversions = 32) ∧
    (closing 31 (Four.all (corner .ok 1500 0)) ready).csm.conversions ≠ 32 ∧
    ({ closing 32 (Four.all (corner .ok 1500 0)) ready with
        ric := { ready.ric with
          frozen := (closing 32 (Four.all (corner .ok 1500 0)) ready).freezeCondition } } : State).ringSafe = true ∧
    (let s := ramping 32 (Four.all (corner .ok 1500 0)) 50 310 (stored ready);
      s.spm.plan = .running ∧ s.activePhase = some .ramping ∧ s.rbt.span = none ∧
      (nextOf (exec (.indexEdge 0 true []) s)).any
        (fun t => t.spm.plan = .running ∧ t.spm.arrival = 1 ∧ t.activePhase = some .ramping) = true ∧
      (nextOf (exec (.indexEdge 0 true []) { s with spm := { s.spm with arrival := 1 } })).any
        (fun t => t.spm.plan = .running ∧ t.activePhase = some .dwelling) = true) := by decide +kernel

/-- Three, and two, good corners of a full revolution: VALID and counted, or INVALID. -/
theorem test_corners_of_a_revolution :
    (nextOf (exec (.indexEdge 0 true []) (closing 32 ⟨corner .ok 30 40, corner .ok 30 40, corner .ok 30 40, corner .fault 0 0⟩ ready))).any
      (fun t => t.ibe.est = .valid ∧ t.ibe.orbit = some ⟨30, 40⟩ ∧ t.ibe.countedSpeed = some 300) = true ∧
    (nextOf (exec (.indexEdge 0 true [])
      (closing 32 ⟨{ corner .ok 30 40 with outOfWindow := 32 }, corner .ok 30 40, corner .ok 30 40, corner .fault 0 0⟩ ready))).any
      (fun t => t.ibe.est = .invalid ∧ t.ibe.settle = 0) = true := by decide +kernel

def unsettled (s : State) : State := { s with ibe := { s.ibe with settle := 0 } }

/-- Learning at 300 rpm: an apparent receptance of 3750 is not anomalous against 3000, one of 3752 is. -/
theorem test_anomalous_revolutions :
    (nextOf (exec (.indexEdge 0 true []) (unsettled (ramping 32 (Four.all (corner .ok 1876 0)) 50 400 (stored ready))))).any
      (fun t => t.rbt.span = some ⟨1, 300, 300, 3752⟩) = true ∧
    (nextOf (exec (.indexEdge 0 true []) (unsettled (ramping 32 (Four.all (corner .ok 1875 0)) 50 400 (stored ready))))).any
      (fun t => t.rbt.span = none) = true := by decide +kernel

/-- A scheduled revolution of 200 ms with slot k next. -/
def scheduledAt (k : Nat) (part : PartState) (s : State) : State :=
  { s with
    rtb := { s.rtb with
      lastIndex := some 0, p := some 200000, pPrev := some 200000, measured := 3000, speedState := .turning,
      revolution := .scheduled k }
    lkp := { s.lkp with part := part } }

theorem test_witness_SlotAddsTheHarmonicSums :
    (∀ k ∈ [0, 31], (scheduledAt k .run started).rtb.revolution = .scheduled k ∧ k < 32 ∧
      (scheduledAt k .run started).rtb.lastIndex = some 0 ∧
      (scheduledAt k .run started).rtb.pPrev = some 200000) ∧
    (scheduledAt 0 .starting started).lkp.part = .starting ∧ (scheduledAt 0 .quiet started).lkp.part = .quiet ∧
    (scheduledAt 0 .waking started).lkp.part ≠ .starting ∧ (scheduledAt 0 .waking started).lkp.part ≠ .quiet := by
  decide +kernel

theorem test_witness_StandstillEndsTheRun :
    started.rtb.restTimer = some 3000000 ∧ started.inReset = false ∧ started.lkp.part ≠ .starting ∧
    started.rbt.span = none := by
  decide +kernel

/-- A span of n revolutions from 500 to 520 rpm, open while the plan runs. -/
def spanning (n : Nat) (bs : List Band) : State := { withBandsOf bs running with rbt := ⟨bs, some ⟨n, 500, 520, 300⟩⟩ }

/-- The candidate is the band 490 to 530: a band up to 469 is apart from it, one up to 470 near it. -/
theorem test_witness_StandstillEndsTheRun_candidate :
    (∀ n ∈ [2, 3], (spanning n [band 0 300 469 .declared]).rbt.span = some ⟨n, 500, 520, 300⟩ ∧
      (spanning n [band 0 300 469 .declared]).bandsSafe = true) ∧
    ¬(300 ≤ 530 + 20 ∧ 490 ≤ 469 + 20) ∧ (300 ≤ 530 + 20 ∧ 490 ≤ 470 + 20) ∧
    (spanning 3 [band 0 300 470 .declared]).bandsSafe = true ∧
    (∀ m < 1, ∃ b ∈ [band 0 300 469 .declared], b.id = m) ∧
    (spanning 3 ((List.range 6).map (fun n => band n (600 + 50 * n) (630 + 50 * n) .declared))).bandsSafe = true ∧
    (nextOf (exec (.restTimerExpiry []) (spanning 3 [band 0 300 469 .declared]))).any
      (fun t => t.rbt.bands = [band 0 300 469 .declared, ⟨1, 490, 530, 300, .learned, 0, false, false⟩]) = true ∧
    (nextOf (exec (.restTimerExpiry []) (spanning 3 [band 0 300 470 .declared]))).any
      (fun t => t.rbt.bands = [⟨0, 300, 530, 300, .declared, 1, false, false⟩]) = true := by decide +kernel

def overdueAt (t : Nat) (s : State) : State := { s with rtb := { s.rtb with overdue := some t } }

theorem test_witness_OverdueIndexTrips :
    (overdueAt 9 started).rtb.overdue = some 9 ∧ (overdueAt 9 started).inReset = false ∧
    (overdueAt 9 started).causesConsistent = true ∧ (overdueAt 9 started).grantSafe = true ∧
    (overdueAt 9 started).tmo.causes.has .tachLost = false ∧
    (overdueAt 9 (tripped started)).causesConsistent = true ∧
    (overdueAt 9 (tripped started)).grantSafe = true := by decide +kernel

/-- Static sampling with n entries in the window. -/
def sampling (n : Nat) (s : State) : State :=
  { s with csm := { s.csm with staticTimer := some 5, window := List.replicate n (Four.all 512#10) } }

theorem test_witness_StaticSampleJoinsTheWindow :
    ∀ n ∈ [0, 7, 8], (sampling n started).csm.staticTimer = some 5 ∧ (sampling n started).inReset = false ∧
      (sampling n started).lkp.part ≠ .quiet := by decide +kernel

/-- The quiet watch with seven empty-basket entries and a quiet reference. -/
def watching (reference : Option Int) : State :=
  let s := sampling 7 started
  { s with lkp := { s.lkp with part := .quiet }, csm := { s.csm with quietRef := reference } }

/-- The mean becomes 0: a reference 2000 µm away is kept, one 2001 µm away wakes the part, and none becomes the mean. -/
theorem test_witness_StaticSampleJoinsTheWindow_quiet :
    (∀ r ∈ [none, some 2000, some (-2000)],
      (nextOf (exec (.staticTimerExpiry (Four.all 512#10)) (watching r))).any
        (fun t => t.csm.meanSag = some 0 ∧ t.lkp.part = .quiet ∧ t.csm.quietRef = some (r.getD 0)) = true) ∧
    (∀ r ∈ [some 2001, some (-2001)],
      (nextOf (exec (.staticTimerExpiry (Four.all 512#10)) (watching r))).any
        (fun t => t.csm.meanSag = some 0 ∧ t.lkp.part = .waking ∧ t.csm.quietRef = none) = true) := by decide +kernel

def withLatch (l : Latch) (s : State) : State := { s with ibe := { s.ibe with latch := l } }

theorem test_witness_LatchTimersRunOut :
    started.inReset = false ∧
    (withLatch (.waiting .settled .drive 5) started).ibe.latch = .waiting .settled .drive 5 ∧
    (withLatch (.ready .settled .cycle started.estimateRecord .met 5) started).ibe.latch =
      .ready .settled .cycle started.estimateRecord .met 5 := by decide +kernel

/-- A plateau dwelling in its window, `e` dwell units elapsed of `dwell`. -/
def dwelling (dwell e : Nat) : State :=
  let s := withPlan .running [{ plateau 2 0 dwell (.active .dwelling) with elapsed := some e }] ready
  { s with spm := { s.spm with inWindow := true, dwellTimer := some 5 } }

theorem test_witness_DwellTickCountsTheDwell :
    (∀ v ∈ [(0, 18000), (2, 0), (2, 1), (18000, 18000)],
      (dwelling v.1 v.2).spm.dwellTimer = some 5 ∧ (dwelling v.1 v.2).inReset = false ∧
      (dwelling v.1 v.2).planConsistent = true ∧
      (dwelling v.1 v.2).active.any (fun p => p.elapsed = some v.2) = true) ∧
    ¬(0 ≠ 0 ∧ 0 = min 18000 (18000 + 1)) ∧ ¬(2 ≠ 0 ∧ 2 = min 18000 (0 + 1)) ∧
    (2 ≠ 0 ∧ 2 = min 18000 (1 + 1)) ∧ (18000 ≠ 0 ∧ 18000 = min 18000 (18000 + 1)) := by decide +kernel

/-- At rest. -/
def atRest (s : State) : State := { s with rtb := { s.rtb with atRest := true } }

/-- A plan that has fallen into REBALANCE, with the grant at Sdist. -/
def rebalancing : State :=
  shown (withPlan (.paused .rebalance) [plateau 0 50 20 (.active .held), plateau 3 60 0 .queued] ready)

/-- The grant is safe and the plan current in the state after reset, in a new part, and at rest with a dwelling and a rebalancing
plan; at-rest ends, and with it the ramp class of a grant of 0 changes. -/
theorem test_witness_FirstEdgeOpensARun_record :
    (∀ s ∈ [State.reset, started, atRest (dwelling 20 5), atRest rebalancing],
      s.inReset = false ∧ s.rtb.lastIndex = none ∧ s.grantSafe = true ∧ s.planCurrent = true ∧
      (nextOf (exec (.indexEdge 5 true []) s)).any (fun t => t.spm = { s.spm with grant := t.spm.grant }) = true) ∧
    (let s := shown (atRest started);
      s.spm.grant.ramp = .normal ∧
      (nextOf (exec (.indexEdge 5 true []) s)).any
        (fun t => t.spm.grant.ramp = .brake ∧ t.lkp.image = t.spm.grant ∧ t.lkp.driveAtn = true) = true) := by
  decide +kernel

/-- Chamber 3's window with its start, over a queue whose head is for chamber 3, at 300 rpm after an accepted revolution. -/
def atWindow (starts : Nat) (st : OrderState) (frozen : Bool) : State :=
  let s := withQueue [{ order 3 256 with state := st }, order 0 129] ready
  { s with
    rtb := { s.rtb with measured := 3000, speedState := .turning, lastCompletion := some .accepted }
    ric := { s.ric with frozen := frozen, windows := [⟨3, 156250, starts, 37500, 3750⟩] } }

theorem test_witness_OpenInstantServesTheHead :
    (∀ starts ∈ [0, 1, 8388607, 8388608],
      (atWindow starts .waiting false).ric.windows.find? (fun v => v.chamber = 3) = some ⟨3, 156250, starts, 37500, 3750⟩ ∧
      (atWindow starts .waiting false).ric.frozen = false ∧ (atWindow starts .waiting false).ric.opening = none ∧
      (atWindow starts .waiting false).ric.queue = [order 3 256, order 0 129] ∧
      (atWindow starts .waiting false).freezeCondition = false) ∧
    sub24 0 0 = 0 ∧ 0 < sub24 1 0 ∧ sub24 8388607 0 < 8388608 ∧ 8388608 ≤ sub24 8388608 0 ∧
    (atWindow 0 .serving false).ric.queue.head? = some { order 3 256 with state := .serving } ∧
    (atWindow 1 .waiting true).ric.frozen = true := by decide +kernel

/-- An opening that credits `credit` mg to a head of 1 g. -/
def atClose (credit : Nat) (rest : List Order) : State :=
  let s := withQueue ({ order 3 1 with state := .serving } :: rest) ready
  { s with ric := { s.ric with opening := some ⟨3, 0, 9, .full, credit, 100⟩ } }

theorem test_witness_CloseInstantCreditsTheHead :
    (∀ credit ∈ [999, 1000], (atClose credit [order 0 2]).inReset = false ∧
      (atClose credit [order 0 2]).ric.opening = some ⟨3, 0, 9, .full, credit, 100⟩ ∧
      (atClose credit [order 0 2]).ric.queue = { order 3 1 with state := .serving } :: [order 0 2]) ∧
    (order 3 1).delivered + 999 < (order 3 1).requested * 1000 ∧
    (order 3 1).requested * 1000 ≤ (order 3 1).delivered + 1000 := by decide +kernel

theorem test_witness_BleedAndUnknownTimers :
    started.inReset = false ∧ started.ric.bleedTimer = some 100000 ∧
    started.ric.unknownTimer = some 30000000 := by decide +kernel

/-- A residue of 999 mg goes, one of 1000 mg stays: B is 40. -/
theorem test_bleed_leaves_no_residue : bledContent 40 4999 = 0 ∧ bledContent 40 5000 = 1000 := by decide

theorem test_witness_PinsRunTheirDebounce :
    started.inReset = false ∧
    ({ started with rst := ⟨some 5, false⟩ } : State).inReset = true := by decide +kernel

/-- Both debounces running, with the pins at a level. -/
def debouncing (level : Bool) (s : State) : State :=
  { s with strikePin := level, lidPin := level, tmo := { s.tmo with strikeTimer := some 5, lidTimer := some 5 } }

theorem test_witness_StrikeSettles :
    (debouncing false running).tmo.strikeTimer = some 5 ∧ (debouncing false running).inReset = false ∧
    (debouncing false running).strikePin = false ∧ (debouncing true running).strikePin = true ∧
    (debouncing true running).causesConsistent = true ∧ (debouncing true running).grantSafe = true ∧
    (debouncing true running).spm.plan.underway = true ∧ (debouncing true running).tmo.first = none ∧
    (debouncing true running).tmo.causes.has .strike = false := by decide +kernel

theorem test_witness_LidSettles :
    (debouncing false running).tmo.lidTimer = some 5 ∧ (debouncing false running).lidPin = false ∧
    (debouncing false running).ringSafe = true ∧ (debouncing true running).lidPin = true := by decide +kernel

/-- The cycle port part way through a frame. -/
def receiving (bytes : List Byte) (skipping : Bool) (s : State) : State := s.setRx .cycle ⟨bytes, 0, skipping⟩

/-- The last instant at which a character still joins is 5260 µs after the one before, and a count of 16 is the last taken. -/
theorem test_witness_CharactersMakeFrames :
    (5260 - 0) * 12 ≤ 63125 ∧ 63125 < (5261 - 0) * 12 ∧ (receiving [] true started).lkp.cycle.rx.skipping = true ∧
    (receiving [1#8, 2#8, 2#8] false started).lkp.cycle.rx.skipping = false ∧
    ([1#8, 2#8, 2#8, 17#8] : List Byte).length = 4 ∧ 16 < (17#8).toNat ∧ (16#8).toNat ≤ 16 ∧
    ([1#8, 9#8, 9#8, 0#8, 0#8, 0#8, 0#8, 0#8] : List Byte).length = 8 + 2 * 0 ∧
    checkMatches [1#8, 9#8, 9#8, 0#8, 0#8, 0#8, 0#8, 0#8] = false := by decide +kernel

def workedAppend : Instr := .append 0 ⟨.cycle, 3#8, 0#16, [400#16, 600#16, 0xFFFF#16, 1#16]⟩

def workedBytes : List Byte :=
  [0x03#8, 0x02#8, 0x02#8, 0x04#8, 0#8, 0#8, 0x01#8, 0x90#8, 0x02#8, 0x58#8, 0xFF#8, 0xFF#8, 0#8, 1#8, 0xFD#8]

theorem test_witness_LastCharacterIsTheRequest :
    requestFrame workedAppend = some (0, ⟨.cycle, 3#8, 2#8, 2#8, 0#16, [400#16, 600#16, 0xFFFF#16, 1#16]⟩) ∧
    workedAppend.wellFormed = true ∧
    frameBytes ⟨.cycle, 3#8, 2#8, 2#8, 0#16, [400#16, 600#16, 0xFFFF#16, 1#16]⟩ = workedBytes ++ [0x0A#8] ∧
    (receiving workedBytes false started).lkp.cycle.rx.bytes = workedBytes ∧
    (receiving workedBytes false started).lkp.cycle.rx.skipping = false ∧
    ((receiving workedBytes false started).time + 0 - (receiving workedBytes false started).lkp.cycle.rx.lastEnd) * 12 ≤
      63125 := by decide +kernel

theorem test_witness_GapDropsAPartialFrame :
    started.lkp.cycle.rx.bytes = [] ∧ started.lkp.cycle.rx.skipping = false ∧
    (receiving [1#8] false started).lkp.cycle.rx.bytes ≠ [] ∧
    (receiving [] true started).lkp.cycle.rx.skipping = true := by decide +kernel

def answering (a : Option Answer) (resetAfter : Bool) (s : State) : State :=
  s.setPort .cycle { s.lkp.cycle with inProgress := some ⟨⟨1#8, 6#8, 9#8⟩, a, resetAfter⟩ }

theorem test_witness_AnswerSentFreesThePort :
    started.lkp.cycle.inProgress = none ∧
    (answering none false started).lkp.cycle.inProgress = some ⟨⟨1#8, 6#8, 9#8⟩, none, false⟩ ∧
    (answering (some ⟨.done, []⟩) false started).lkp.cycle.inProgress =
      some ⟨⟨1#8, 6#8, 9#8⟩, some ⟨.done, []⟩, false⟩ ∧
    (answering (some ⟨.done, []⟩) true started).lkp.cycle.inProgress =
      some ⟨⟨1#8, 6#8, 9#8⟩, some ⟨.done, []⟩, true⟩ ∧
    started.cls.programming = none ∧
    (let s := answering (some ⟨.done, []⟩ ) false started;
     let w := s.setPort .cycle { s.lkp.cycle with waiting := some ⟨1#8, 1#8, 1#8⟩ };
     w.lkp.cycle.inProgress = some ⟨⟨1#8, 6#8, 9#8⟩, some ⟨.done, []⟩, false⟩ ∧
     w.lkp.cycle.waiting = some ⟨1#8, 1#8, 1#8⟩ ∧
     (nextOf (exec (.answerSent 0 .cycle) w)).any
       (fun t => t.lkp.cycle.inProgress = some ⟨⟨1#8, 1#8, 1#8⟩, some ⟨.busy, []⟩, false⟩) = true) := by decide +kernel

def inPart (part : PartState) (s : State) : State :=
  { s with lkp := { s.lkp with
      part := part
      quietTimer := if part = .quietPending then some 5 else none
      wakeTimer := if part = .waking then some 5 else none } }

theorem test_witness_QuietAndWakeTimers :
    (inPart .quietPending started).inReset = false ∧ (inPart .quietPending started).lkp.quietTimer = some 5 ∧
    (inPart .waking started).inReset = false ∧ (inPart .waking started).lkp.wakeTimer = some 5 ∧
    (inPart .waking started).lkp.part = .waking := by decide +kernel

/-- A frame is received as its request row and by its last character, of a kind that no row has as well. -/
theorem test_witness_FramesMeetTheirCases_receives :
    receives (.start 0 (com [])) 0 (commandFrame 1#8 1#16 (com [])) started ∧
    receives (.characterReceived 0 .cycle 0x0A#8 true) 0
      ⟨.cycle, 3#8, 2#8, 2#8, 0#16, [400#16, 600#16, 0xFFFF#16, 1#16]⟩ (receiving workedBytes false started) ∧
    receives (.characterReceived 0 .cycle 0xF1#8 true) 0 ⟨.cycle, 1#8, 12#8, 1#8, 0#16, []⟩
      (receiving [1#8, 12#8, 1#8, 0#8, 0#8, 0#8, 0xFF#8] false started) := by
  refine ⟨Or.inl (by decide +kernel), Or.inr ⟨by decide, workedBytes, 0x0A#8, ?_⟩,
    Or.inr ⟨by decide, [1#8, 12#8, 1#8, 0#8, 0#8, 0#8, 0xFF#8], 0xF1#8, ?_⟩⟩ <;>
    decide +kernel

/-- The part states and ports of the cases: QUIET_PENDING, QUIET with a busy port, WAKING, and a broadcast. -/
theorem test_witness_FramesMeetTheirCases_states :
    (∀ part ∈ [PartState.quietPending, .quiet, .waking, .run],
      (inPart part started).lkp.part = part ∧ (inPart part started).lkp.cycle.inProgress = none ∧
      (inPart part started).nodeAddress = some 1 ∧ (inPart part started).nodeAddress ≠ some 15) ∧
    (inPart .quiet (answering none false started)).lkp.cycle.inProgress ≠ none ∧
    (frameOf 1#8 9#8 (req 0 [])).isLookup 9#8 = true ∧ (frameOf 1#8 9#8 (req 0 [])).formOk = true ∧
    (frameOf 1#8 9#8 (req 1 [0#16])).formOk = false ∧ (frameOf 1#8 9#8 (req 1 [0#16])).isLookup 9#8 = true ∧
    (commandFrame 9#8 11#16 ⟨.cycle, 15#8, [7#16]⟩).formOk = true ∧
    (commandFrame 9#8 11#16 ⟨.cycle, 15#8, []⟩).formOk = false ∧
    (⟨.cycle, 1#8, 12#8, 1#8, 0#16, []⟩ : Frame).formOk = false := by decide +kernel

/-- The conditions on which a frame's cases turn, each in a part state of its own. -/
theorem test_witness_FramesMeetTheirCases :
    requestFrame (.start 0 (com [])) = some (0, commandFrame 1#8 1#16 (com [])) ∧
    (Instr.start 0 (com [])).wellFormed = true ∧ started.nodeAddress = some (com []).addr.toNat ∧
    started.nodeAddress ≠ some (2#8).toNat ∧ started.lkp.cycle.inProgress = none ∧
    (answering none false started).lkp.cycle.inProgress ≠ none ∧
    (answering none false started).lkp.cycle.waiting = none ∧
    (started.setPort .cycle ⟨Rx.empty, some ⟨⟨1#8, 6#8, 9#8⟩, none, false⟩, some ⟨1#8, 6#8, 9#8⟩⟩).lkp.cycle.waiting ≠
      none ∧
    (commandFrame 1#8 1#16 (com [])).formOk = true ∧ (commandFrame 1#8 1#16 (com [0#16])).formOk = false ∧
    (commandFrame 1#8 1#16 (com [])).driveGrant = false ∧ (frameOf 1#8 3#8 (driveReq 0)).driveGrant = true ∧
    (commandFrame 1#8 1#16 (com [])).isLookup 9#8 = false ∧
    (frameOf 1#8 1#8 (driveReq 0)).driveRights = false ∧ (frameOf 1#8 9#8 (driveReq 0)).driveRights = true ∧
    (inPart .quiet started).rbt.span = none ∧ State.reset.lkp.part = .starting := by decide +kernel

theorem test_witness_requests_reach_their_owner :
    started.takes 0 (req 0 []) ∧ started.ready .drive 1#8 ∧ started.takesCommand 0 (com []) ∧
    running.takes 4 (req 0 [0#16, 0#16, 0#16, 0#16]) ∧ running.takesCommand 1 (com [0#16]) ∧
    started.takes 16 (req 1 (List.replicate 16 1#16)) := by
  unfold State.takes State.takesCommand State.ready
  decide +kernel

theorem test_witness_RecordLookupsAnswerTheRecord :
    started.takes 0 (req 0 []) ∧ (req 0 []).key = 0#16 ∧ (driveReq 0).params = [] ∧
    started.ready (driveReq 0).port (driveReq 0).addr ∧ (driveReq 0).key = 0#16 ∧
    2 < (driveReq 3).key.toNat := by
  unfold State.takes State.ready
  decide +kernel

/-- Slots 0 and 3 are taken, and the band table holds id 0 alone. -/
theorem test_witness_KeyedLookupsFindTheRecord :
    7 < (req 8 []).key.toNat ∧ (∀ p ∈ running.spm.plateaus, p.slot ≠ (req 7 []).key.toNat) ∧
    running.planConsistent = true ∧
    running.spm.plateaus[1]? = some (plateau 3 60 0 .queued) ∧ (plateau 3 60 0 .queued).slot = (req 3 []).key.toNat ∧
    5 < (req 6 []).key.toNat ∧ (∀ b ∈ running.rbt.bands, b.id ≠ (req 5 []).key.toNat) ∧
    running.bandsSafe = true ∧ (∃ b ∈ running.rbt.bands, b.id = (req 0 []).key.toNat) ∧
    3 < (req 4 []).key.toNat ∧ (req 3 []).key.toNat = (3 : Fin 4).val ∧ 8 < (req 9 []).key.toNat ∧
    (withQueue [order 3 256] running).ric.queue[7]? = none ∧
    (withQueue [order 3 256] running).ric.queue[0]? = some (order 3 256) ∧
    specOf (req 7 []).key.toNat = none ∧ (specOf (req 39 []).key.toNat).isSome = true ∧
    (running.cls.item (req 39 []).key.toNat).isSome = true := by decide +kernel

theorem test_witness_GrantLookupShowsTheGrant :
    (driveReq 0).params = [] ∧ started.imageCurrent = true ∧ started.ready .cycle (req 0 []).addr ∧
    (inPart .quiet started).imageCurrent = true ∧ (inPart .quiet started).lkp.part ≠ .starting ∧
    (inPart .quiet started).lkp.drive.inProgress = none := by
  unfold State.ready
  decide +kernel

theorem test_witness_StatusLookupTakesTheNotices :
    started.ready (req 0 []).port (req 0 []).addr ∧ started.ready (driveReq 0).port (driveReq 0).addr := by
  unfold State.ready
  decide +kernel

/-- A settled estimate. -/
def settledState : State := { started with ibe := { started.ibe with est := .valid, settle := 4, uS := some 300 } }

theorem test_witness_DelayedLookupMeetsTheLatch :
    started.ready (req 1 []).port (req 1 []).addr ∧ started.ready (driveReq 2).port (driveReq 2).addr ∧
    (withLatch (.ready .settled .cycle started.estimateRecord .met 5) started).ibe.latch.heldBy .settled .cycle = true ∧
    (withLatch (.waiting .ringSettled .drive 5) started).ibe.latch.heldBy .settled .cycle = false ∧
    (withLatch (.waiting .ringSettled .drive 5) started).ibe.latch ≠ .free ∧
    settledState.ibe.latch.heldBy .settled .cycle = false ∧ settledState.settled = true ∧
    started.ibe.latch = .free ∧ started.settled = false ∧ started.ringSettled = false := by
  unfold State.ready
  decide +kernel

def fullPlan : State := withPlan .loaded ((List.range 8).map (fun n => plateau n 50 0 .queued)) ready

def fitsPlateau (target floor auto : Nat) : Bool :=
  decide (target ≤ 1200 ∧ (floor = 65535 ∨ (floor ≤ 1200 ∧ floor ≤ target)) ∧ auto ≤ 1)

theorem test_witness_AppendAddsARecord :
    loaded.takes 4 (req 0 [1200#16, 0#16, 1200#16, 1#16]) ∧ loaded.planConsistent = true ∧
    finished.planConsistent = true ∧ finished.spm.plan = .complete ∧ fullPlan.planConsistent = true ∧
    fullPlan.spm.plateaus.length = 8 ∧ fitsPlateau 1200 1200 1 = true ∧ fitsPlateau 1200 65535 0 = true ∧
    fitsPlateau 1201 65535 0 = false ∧ fitsPlateau 100 101 0 = false ∧ fitsPlateau 100 100 2 = false ∧
    running.planConsistent = true ∧ started.planConsistent = true ∧ started.spm.plan = .empty := by
  unfold State.takes State.ready
  decide +kernel

theorem test_witness_AmendPlateauChangesARecord :
    running.takes 4 (req 0 [50#16, 2#16, 0xFFFF#16, 0#16]) ∧ running.planConsistent = true ∧
    (∀ p ∈ running.spm.plateaus, p.slot ≠ (req 7 []).key.toNat) ∧ 7 < (req 8 []).key.toNat ∧
    (∃ p ∈ running.spm.plateaus, p.slot = (req 0 []).key.toNat ∧ p.isActive = true ∧ p.autoBalance = false) ∧
    (∃ p ∈ running.spm.plateaus, p.slot = (req 3 []).key.toNat ∧ p.state = .queued) ∧
    (∃ p ∈ finished.spm.plateaus, p.slot = (req 0 []).key.toNat ∧ p.isOver = true) ∧
    (dwelling 20 5).planConsistent = true ∧
    (∃ p ∈ (dwelling 20 5).spm.plateaus, p.isActive = true ∧ p.elapsed = some 5) ∧
    (min 5 18000 ≠ 0 ∧ min 5 18000 ≤ 5) ∧ ¬(min 6 18000 ≠ 0 ∧ min 6 18000 ≤ 5) ∧
    ¬(min 0 18000 ≠ 0 ∧ min 0 18000 ≤ 5) := by
  unfold State.takes State.ready
  decide +kernel

/-- A LOADED plan of one record. -/
def loadedOne : State := withPlan .loaded [plateau 7 50 0 .queued] ready

theorem test_witness_WithdrawAndRetireRecords :
    loadedOne.takes 0 (req 7 []) ∧ loadedOne.planConsistent = true ∧ loadedOne.spm.plan = .loaded ∧
    loadedOne.spm.plateaus.filter (fun q => q.slot ≠ (req 7 []).key.toNat) = [] ∧
    loaded.spm.plateaus.filter (fun q => q.slot ≠ (req 3 []).key.toNat) ≠ [] ∧
    (∃ p ∈ running.spm.plateaus, p.slot = (req 0 []).key.toNat ∧ p.isActive = true ∧ p.isOver = false) ∧
    (∃ p ∈ finished.spm.plateaus, p.slot = (req 0 []).key.toNat ∧ p.isOver = true) ∧
    finished.planConsistent = true := by
  unfold State.takes State.ready
  decide +kernel

theorem test_witness_NextEndsThePlateau :
    running.takesCommand 1 (com [0#16]) ∧ running.planConsistent = true ∧ 7 < (8#16 : Word).toNat ∧
    (∀ p ∈ running.spm.plateaus, p.slot ≠ (7#16 : Word).toNat) ∧
    (∃ p ∈ running.spm.plateaus, p.slot = (0#16 : Word).toNat ∧ p.isActive = true) ∧
    (∃ p ∈ running.spm.plateaus, p.slot = (3#16 : Word).toNat ∧ p.isActive = false) := by
  unfold State.takesCommand State.ready
  decide +kernel

theorem test_witness_StartRunsThePlan :
    loaded.takesCommand 0 (com []) ∧ loaded.planConsistent = true ∧ loaded.spm.plan = .loaded ∧
    loaded.tmo.lid = true ∧ loaded.tmo.first = none ∧ loaded.spm.restartHold = false ∧ loaded.rbt.span = none ∧
    loaded.ringSafe = true ∧ running.spm.plan ≠ .loaded ∧ (tripped loaded).tmo.first ≠ none ∧
    (tripped loaded).planConsistent = true ∧
    ({ loaded with spm := { loaded.spm with restartHold := true } } : State).spm.restartHold = true := by
  unfold State.takesCommand State.ready
  decide +kernel

theorem test_witness_PauseAndResume :
    running.takesCommand 0 (com []) ∧ running.planConsistent = true ∧ running.spm.plan = .running ∧
    running.spm.plan.isPaused = false ∧ paused.takesCommand 0 (com []) ∧ paused.planConsistent = true ∧
    paused.spm.plan.isPaused = true ∧ paused.tmo.lid = true ∧ paused.tmo.first = none ∧
    paused.spm.plan ≠ .running ∧ (tripped paused).tmo.first ≠ none ∧ paused.bandsSafe = true ∧
    paused.spm.restartHold = false := by
  unfold State.takesCommand State.ready
  decide +kernel

theorem test_witness_AbortEndsThePlan_and_ClearEmptiesThePlan :
    running.takesCommand 0 (com []) ∧ running.spm.plan = .running ∧ loaded.spm.plan = .loaded ∧
    paused.spm.plan = .paused .partner ∧ finished.takesCommand 0 (com []) ∧ finished.spm.plan = .complete ∧
    running.spm.plan.underway = true ∧ finished.spm.plan.underway = false ∧ finished.rbt.span = none ∧
    finished.ringSafe = true ∧ started.spm.plan = .empty ∧ started.spm.plan.underway = false := by
  unfold State.takesCommand State.ready
  decide +kernel

theorem test_witness_GuardSetsTheLevel :
    started.takesCommand 1 (com [3#16]) ∧ 2 < (3#16 : Word).toNat ∧ (2#16 : Word).toNat = 2 ∧
    started.cls.unlocked = false ∧ (unlocked started).takesCommand 1 (com [2#16]) ∧
    (unlocked started).cls.unlocked = true ∧ started.spm.guard = .tight ∧ started.spm.guard ≠ .normal ∧
    (0#16 : Word).toNat = 0 ∧ (1#16 : Word).toNat = 1 ∧
    running.takesCommand 1 (com [0#16]) ∧ running.spm.guard ≠ .normal ∧ running.spm.plan = .running ∧
    running.rbt.span = none ∧ running.spm.restartHold = false ∧ running.tmo.first = none ∧ running.tmo.lid = true ∧
    running.bandsSafe = true ∧ running.planConsistent = true := by
  unfold State.takesCommand State.ready
  decide +kernel

theorem test_witness_AmendLoadDeclaresTheClass :
    started.takes 1 (req 0 [0x100#16]) ∧ started.spm.plan.underway = false ∧ running.spm.plan.underway = true ∧
    3 < (4#16 : Word).toNat ∧ (4#16 : Word) ≠ 0x100#16 ∧ (3#16 : Word).toNat = (3 : Fin 4).val ∧
    (none : Option (Fin 4)).getD 2 = started.tableClass ∧ (some (2 : Fin 4)).getD 2 = started.tableClass ∧
    (some (3 : Fin 4)).getD 2 ≠ started.tableClass := by
  unfold State.takes State.ready
  decide +kernel

def sixBands : List Band := (List.range 6).map (fun n => band n (100 + 100 * n) (150 + 100 * n) .declared)

def bandWordsOk (sdist lower upper peak : Nat) : Bool :=
  decide (sdist + 30 ≤ lower ∧ upper ≤ 1200 ∧ lower < upper ∧ upper - lower ≤ 200 ∧ 1 ≤ peak ∧ peak ≤ 9999)

/-- Sdist is 60. The reset table's band 0 ends at 390: 410 is still near it, 411 is apart. -/
theorem test_witness_DeclarePlacesABand :
    started.takes 3 (req 0 [411#16, 611#16, 9999#16]) ∧ started.bandsSafe = true ∧ started.rbt.span = none ∧
    bandWordsOk started.sdist 411 611 9999 = true ∧ bandWordsOk started.sdist 411 612 1 = false ∧
    bandWordsOk started.sdist 90 91 1 = true ∧ bandWordsOk started.sdist 89 91 1 = false ∧
    bandWordsOk started.sdist 91 91 1 = false ∧ bandWordsOk started.sdist 1000 1201 1 = false ∧
    bandWordsOk started.sdist 100 200 0 = false ∧ bandWordsOk started.sdist 100 200 10000 = false ∧
    (∀ b ∈ started.rbt.bands, ¬(b.lower ≤ 611 + 20 ∧ 411 ≤ b.upper + 20) ∧ b.id ≠ 1) ∧
    (∀ m < 1, ∃ b ∈ started.rbt.bands, b.id = m) ∧ (∃ b ∈ started.rbt.bands, b.lower ≤ 610 + 20 ∧ 410 ≤ b.upper + 20) ∧
    (withBandsOf sixBands started).bandsSafe = true ∧ (withBandsOf sixBands started).rbt.bands.length = 6 ∧
    (∀ b ∈ sixBands, ¬(b.lower ≤ 900 + 20 ∧ 800 ≤ b.upper + 20)) := by
  unfold State.takes State.ready
  decide +kernel

def threeOrigins : List Band := [band 0 100 150 .calibrated, band 2 200 250 .declared, band 5 300 350 .learned]

/-- Between a band that ends at 250 and one that begins at 300, a declaration up to 279 is near the first alone. -/
theorem test_witness_DeclarePlacesABand_merge :
    (withBandsOf threeOrigins started).bandsSafe = true ∧ bandWordsOk started.sdist 260 279 1 = true ∧
    (∃ b ∈ threeOrigins, b.id = 2 ∧ (b.lower ≤ 279 + 20 ∧ 260 ≤ b.upper + 20) ∧
      (∀ a ∈ threeOrigins, (a.lower ≤ 279 + 20 ∧ 260 ≤ a.upper + 20) → b.lower ≤ a.lower) ∧
      (let merged := b.takesIn 260 279 1 .declared;
        ∀ a ∈ threeOrigins, a.id ≠ b.id → a.upper < merged.lower ∨ merged.upper < a.lower)) := by decide +kernel

theorem test_witness_RetireAndPinBands :
    (withBandsOf threeOrigins started).takes 0 (req 5 []) ∧ (withBandsOf threeOrigins started).takes 1 (req 5 [1#16]) ∧
    (withBandsOf threeOrigins started).bandsSafe = true ∧ (withBandsOf threeOrigins started).rbt.span = none ∧
    5 < (req 6 []).key.toNat ∧ 1 < (2#16 : Word).toNat ∧ (∀ b ∈ threeOrigins, b.id ≠ (req 4 []).key.toNat) ∧
    (∃ b ∈ threeOrigins, b.id = (req 0 []).key.toNat ∧ b.origin = .calibrated) ∧
    (∃ b ∈ threeOrigins, b.id = (req 2 []).key.toNat ∧ b.origin = .declared) ∧
    (∃ b ∈ threeOrigins, b.id = (req 5 []).key.toNat ∧ b.origin = .learned ∧ b.pinned = decide ((0#16 : Word).toNat = 1) ∧
      b.pinned ≠ decide ((1#16 : Word).toNat = 1)) := by
  unfold State.takes State.ready
  decide +kernel

/-- The ring of a STORED part with known chambers and a queue; capacity is 400 g. -/
def ring (q : List Order) : State := withQueue q (stored started)

theorem test_witness_InjectQueuesAnOrder :
    (ring []).ready .cycle (req 0 []).addr ∧ (ring []).ric.flush = false ∧ (ring []).cls.defaulted = false ∧
    (ring []).ric.contents = some (Four.all 0) ∧ started.cls.defaulted = true ∧
    (stored started).ric.contents = none ∧ (stored started).cls.defaulted = false ∧
    (∃ p ∈ pairsOf [4#16, 1#16], 3 < p.chamber) ∧ (∀ p ∈ pairsOf [3#16, 0#16], p.chamber ≤ 3) ∧
    (∃ p ∈ pairsOf [3#16, 0#16], p.grams = 0) ∧ (ring []).capacity = 400 ∧
    (ring [order 3 400]).ric.room (ring [order 3 400]).capacity 3 = some 0 ∧
    (ring [order 3 399]).ric.room (ring [order 3 399]).capacity 3 = some 1 ∧
    (ring [order 0 5, order 3 399]).ric.queue = [order 0 5] ++ [order 3 399] ∧
    (ring (List.replicate 8 (order 0 1))).ric.queue.length = 8 ∧
    ({ ring [order 0 5] with ric := { (ring [order 0 5]).ric with flush := true } } : State).ric.flush = true ∧
    (ring []).injectRefused (pairsOf [0#16, 5#16, 1#16, 6#16, 2#16, 7#16, 3#16, 401#16]) = none := by
  unfold State.ready
  decide +kernel

/-- A completion at 300 rpm that leaves the estimate SETTLED at 50 g with Uauto 50 g, and one with Uauto 51 g. -/
theorem test_witness_InjectQueuesAnOrder_posting :
    (∀ v ∈ [(50#16, 1), (51#16, 0)],
      let r := ramping 32 (Four.all (corner .ok 1500 0)) 50 300 (withItem 20 v.1 (stored ready));
      let s := { withQueue [] r with ric := { (withQueue [] r).ric with frozen := false } };
      s.inReset = false ∧ s.rtb.lastIndex = some 0 ∧ 20000 ≤ sub24 (s.elapse 0).capture 0 ∧ s.spm.plan = .running ∧
      s.active.any Plateau.autoBalance = true ∧ s.ric.opening = none ∧ s.ric.flush = false ∧
      s.ric.contents = some (Four.all 0) ∧ s.cls.defaulted = false ∧
      (nextOf (exec (.indexEdge 0 true []) s)).any (fun t => t.spm.plan = .running ∧ t.settled = true ∧
        t.ibe.uS = some 50 ∧ t.ibe.angle = some 0 ∧ s.sinjLo ≤ t.rpm ∧ t.rpm ≤ s.sinjHi ∧
        min 1 t.ric.queue.length = v.2) = true) := by decide +kernel

theorem test_witness_FlushAndCancel :
    (ring [order 3 1]).takesCommand 0 (com []) ∧ (ring [order 3 1]).ric.opening = none ∧
    (atClose 999 [order 0 2]).takesCommand 0 (com []) ∧
    (atClose 999 [order 0 2]).ric.opening = some ⟨3, 0, 9, .full, 999, 100⟩ ∧
    (atClose 999 [order 0 2]).ric.queue = { order 3 1 with state := .serving } :: [order 0 2] := by
  unfold State.takesCommand State.ready
  decide +kernel

theorem test_witness_ClearTripClearsTheLatch :
    started.takesCommand 0 (com []) ∧ started.tmo.first = none ∧ (tripped started).takesCommand 0 (com []) ∧
    (tripped started).tmo.first ≠ none ∧ (tripped started).rtb.atRest = false ∧
    ({ tripped started with rtb := { started.rtb with atRest := true } } : State).rtb.atRest = true ∧
    (tripped started).tmo.strike = false := by
  unfold State.takesCommand State.ready
  decide +kernel

/-- n = 0, 1, 7 and 8, to the node address and to all. -/
theorem test_witness_QuietAndReset :
    started.takesCommand 0 (com []) ∧ started.inReset = false ∧ started.lkp.part = .run ∧
    started.lkp.cycle.inProgress = none ∧ started.cls.value 1 = (com []).addr.toNat ∧ started.cls.value 1 ≠ 15 ∧
    (∀ n ∈ [0, 8], (BitVec.ofNat 16 n).toNat < 1 ∨ 7 < (BitVec.ofNat 16 n).toNat) ∧
    (∀ n ∈ [1, 7], ¬((BitVec.ofNat 16 n).toNat < 1 ∨ 7 < (BitVec.ofNat 16 n).toNat ∨ started.spm.plan.underway = true ∨
      started.rtb.speedState = .turning ∨ started.tmo.first ≠ none)) ∧
    running.spm.plan.underway = true := by
  unfold State.takesCommand State.ready
  decide +kernel

def keyed (source : Source) (lockout : Bool) : State :=
  { started with cls := { started.cls with
      lockout := lockout
      items := started.cls.items.map
        (fun i => if i.num = 6 then { i with source := source, held := [1#16, 2#16, 3#16, 4#16] } else i) } }

theorem test_witness_KeyVerifyUnlocksService :
    started.takes 4 (req 0 [1#16, 2#16, 3#16, 4#16]) ∧ ((keyed .stored false).cls.item 6).any
      (fun i => i.source = .stored && i.held = [1#16, 2#16, 3#16, 4#16] && i.held ≠ [1#16, 2#16, 3#16, 5#16]) = true ∧
    (keyed .stored false).cls.lockout = false ∧ (keyed .stored true).cls.lockout = true ∧
    ((keyed .blank false).cls.item 6).any (fun i => i.source ≠ .stored) = true := by
  unfold State.takes State.ready
  decide +kernel

theorem test_witness_LockEndsService :
    started.takesCommand 0 (com []) ∧ started.spm.guard ≠ .test ∧
    ({ unlocked started with spm := { started.spm with guard := .test } } : State).spm.guard = .test := by
  unfold State.takesCommand State.ready
  decide +kernel

/-- Item 7 does not exist; item 1 is FIXED and blank, once; item 2 ranges to 1200; item 10 is not FIXED. -/
theorem test_witness_CalWriteTakesAnItem :
    started.takes 16 (req 7 (List.replicate 16 0#16)) ∧ specOf 7 = none ∧ running.spm.plan.underway = true ∧
    started.spm.plan.underway = false ∧ specOf 1 = some (oneWord 1 true 1) ∧
    (started.cls.item 1).any (fun i => i.source = .blank) = true ∧
    ((stored started).cls.item 1).any (fun i => i.source ≠ .blank) = true ∧
    specOf 10 = some (oneWord 10 false 8000) ∧ (started.cls.item 10).isSome = true ∧ started.cls.unlocked = false ∧
    (unlocked started).cls.unlocked = true ∧ inRange 10 [5000#16] = true ∧ inRange 10 [4999#16] = false ∧
    inRange 10 [40000#16] = true ∧ inRange 10 [40001#16] = false ∧
    (unlocked started).cls.crossOk 10 [5000#16] = true ∧ inRange 2 [1200#16] = true ∧ inRange 2 [1201#16] = false ∧
    (programmingOne none).inReset = false ∧ (programmingOne none).cls.programming = some ⟨1, [5#16]⟩ ∧
    (programmingOne none).lkp.cycle.inProgress = some ⟨⟨1#8, 10#8, 10#8⟩, none, false⟩ ∧
    started.inReset = false ∧ started.cls.programming = none := by
  unfold State.takes State.ready
  decide +kernel

/-- Words at the bounds of a few ranges of Tables 10-2 and 10-3. -/
def rangeBounds : List (Nat × List Word × Bool) :=
  [(10, [5000#16], true), (10, [4999#16], false), (10, [40000#16], true), (10, [40001#16], false), (1, [14#16], true),
    (1, [15#16], false), (1, [0#16], false), (6, [1#16, 0xFFFE#16, 1#16, 1#16], true),
    (6, [1#16, 0xFFFF#16, 1#16, 1#16], false), (27, [1#16, 2#16, 30000#16], true), (27, [1#16, 2#16, 2#16], false),
    (39, List.replicate 3 0xFFFF#16, true), (38, List.replicate 3 0xFFFF#16, false)]

theorem test_witness_CalWriteTakesAnItem_ranges :
    ∀ v ∈ rangeBounds, wordsInRange v.1 v.2.1 ↔ v.2.2 = true := by
  have h : ∀ v ∈ rangeBounds, (specOf v.1).any (fun spec => v.2.1.length = spec.words) = true ∧
      inRange v.1 v.2.1 = v.2.2 := by decide +kernel
  intro v m
  obtain ⟨long, range⟩ := h v m
  cases e : specOf v.1 with
  | none => simp [e] at long
  | some spec => rw [← inRange_iff e (by simpa [e] using long), range]

/-- The bounds of the cross checks: Shold 150, Sinj 200 to 400, Sdist 60, item 38 from 90. -/
def crossBounds : List (Nat × List Word × Bool) :=
  [(15, [200#16], true), (15, [201#16], false), (16, [150#16], true), (16, [149#16], false), (16, [399#16], true),
    (16, [400#16], false), (17, [201#16], true), (17, [200#16], false), (14, [60#16], true), (14, [61#16], false),
    (38, [90#16, 91#16, 1#16], true), (38, [89#16, 91#16, 1#16], false)]

theorem test_witness_CalWriteTakesAnItem_crossChecks :
    ∀ v ∈ crossBounds, started.cls.crossChecks v.1 v.2.1 ↔ v.2.2 = true := by
  have h : ∀ v ∈ crossBounds, (specOf v.1).any (fun spec => v.2.1.length = spec.words) = true ∧
      inRange v.1 v.2.1 = true ∧ started.cls.crossOk v.1 v.2.1 = v.2.2 := by decide +kernel
  intro v m
  obtain ⟨long, range, cross⟩ := h v m
  cases e : specOf v.1 with
  | none => simp [e] at long
  | some spec => rw [← started.cls.crossOk_iff ((inRange_iff e (by simpa [e] using long)).1 range), cross]

/-! ### The freeze, the ring over an event, and the ends of plateaus -/

/-- A queue under way whose lid settles unlocked at 20 ms, with the head's valve open since 0 at 120 g/s or closed. -/
def unlocking (head : Order) (rest : List Order) (valve : Bool) : State :=
  let s := atWindow 0 .serving false
  { s with
    lidPin := false
    tmo := { s.tmo with lidTimer := some 20000 }
    ric := { s.ric with
      queue := { head with state := .serving } :: rest
      opening := if valve then some ⟨head.chamber, 0, 37500, .full, 4500, 120⟩ else none } }

/-- 20 ms deliver 2400 mg: two grams reach the chamber, the head goes back, taking in an equal order behind it, or is complete. -/
theorem test_witness_LidSettles_freeze :
    (∀ s ∈ [unlocking (order 3 256) [order 3 10] true, unlocking (order 3 256) [{ order 3 10 with origin := .auto }] true,
        unlocking (order 3 2) [order 0 10] true, unlocking (order 3 256) [] false],
      s.ringSafe = true ∧ s.tmo.lidTimer = some 20000 ∧ s.lidPin = false ∧ s.ric.frozen = false) ∧
    (∀ v ∈ [(unlocking (order 3 256) [order 3 10] true, [{ order 3 266 with delivered := 2400 }], 2000),
        (unlocking (order 3 256) [{ order 3 10 with origin := .auto }] true,
          [{ order 3 256 with delivered := 2400 }, { order 3 10 with origin := .auto }], 2000),
        (unlocking (order 3 2) [order 0 10] true, [order 0 10], 2000),
        (unlocking (order 3 256) [] false, [order 3 256], 0)],
      (nextOf (exec .lidDebounceExpiry v.1)).any (fun t => t.ric.frozen = true ∧ t.ric.opening = none ∧
        t.ric.queue = v.2.1 ∧ t.ric.contents = some ⟨0, 0, 0, v.2.2⟩ ∧ t.ric.bound = 20000) = true) := by decide +kernel

/-- A closing revolution of 31 slots, SHORT, over a ring under way. -/
def shortened (s : State) : State :=
  { s with rtb := { (closing 32 (Four.all (corner .ok 1500 0)) s).rtb with revolution := .scheduled 31 } }

theorem test_witness_ClosingEdge_ring :
    (let s := shortened (unlocking (order 3 256) [order 0 10] true);
      s.ringSafe = true ∧ s.ric.frozen = false ∧ s.rtb.lastIndex = some 0 ∧
      (nextOf (exec (.indexEdge 200000 true []) s)).any (fun t => t.ric.frozen = true ∧ t.ric.opening = none ∧
        t.ric.queue = [{ order 3 256 with delivered := 4500 }, order 0 10] ∧ t.ric.bound = 200000) = true) := by
  decide +kernel

/-- Shold is 150: a period of 400000 µs gives 150 rpm, one of 402684 µs 149. -/
theorem test_witness_ClosingEdge_timers :
    (inRun started).shold = 150 ∧ (inRun started).ric.contents = none ∧
    (nextOf (exec (.indexEdge 400000 true []) (inRun started))).any
      (fun t => t.rpm = 150 ∧ t.ric.bleedTimer = none ∧ t.ric.unknownTimer = none) = true ∧
    (nextOf (exec (.indexEdge 402684 true []) (inRun started))).any
      (fun t => t.rpm = 149 ∧ t.ric.bleedTimer = some 100000 ∧ t.ric.unknownTimer = some 30000000) = true ∧
    (let s : State := { inRun started with ric := { started.ric with bleedTimer := none, unknownTimer := none } };
      (nextOf (exec (.indexEdge 402684 true []) s)).any (fun t => t.ric.bleedTimer = some 502684 ∧
        t.ric.unknownTimer = some 30402684) = true) := by decide +kernel

/-- The part states that an entry into TURNING meets. -/
theorem test_witness_ClosingEdge_turning :
    (∀ v ∈ [(PartState.quiet, PartState.waking, true), (.quietPending, .run, false), (.waking, .waking, true),
        (.run, .run, false)],
      (inPart v.1 (inRun started)).rtb.speedState = .stopped ∧
      (nextOf (exec (.indexEdge 400000 true []) (inPart v.1 (inRun started)))).any
        (fun t => t.rtb.speedState = .turning ∧ t.lkp.part = v.2.1 ∧ t.lkp.notices.wake = v.2.2) = true) := by
  decide +kernel

/-- The arrival of a plateau in its window starts the dwell tick timer; a dwell under way keeps its own. -/
theorem test_witness_ClosingEdge_dwell :
    (let s := ramping 32 (Four.all (corner .ok 1500 0)) 50 310 (stored ready);
      let arriving : State := { s with spm := { s.spm with arrival := 1 } };
      arriving.planConsistent = true ∧ arriving.rbt.span = none ∧
      (nextOf (exec (.indexEdge 0 true []) arriving)).any (fun t => t.spm.dwellTimer = some 300000) = true) ∧
    (let s := closing 32 (Four.all (corner .ok 1500 0)) (dwelling 20 5);
      s.planConsistent = true ∧ s.rbt.span = none ∧ s.spm.dwellTimer = some 5) := by decide +kernel

/-- APPEND to a RUNNING plan leaves its records and its state. -/
theorem test_append_to_a_running_plan :
    (nextOf (exec (.append 0 (req 0 [1200#16, 0#16, 1200#16, 1#16])) running)).any
      (fun t => t.spm.plan = .running ∧ t.spm.plateaus.take 2 = running.spm.plateaus ∧
        t.spm.plateaus.map Plateau.slot = [0, 3, 1]) = true := by decide +kernel

/-- A plateau that ends keeps its elapsed dwell, and the dwell that an AMEND gave it. -/
theorem test_ended_records :
    (∀ v ∈ [(exec (.next 0 (com [2#16])) (dwelling 20 5), 20, PlateauState.done .next),
        (exec (.withdraw 0 (req 2 [])) (dwelling 20 5), 20, .skipped .withdrawn),
        (exec (.amendPlateau 0 (req 2 [0#16, 5#16, 0xFFFF#16, 0#16])) (dwelling 20 5), 5, .done .expired)],
      (nextOf v.1).any (fun t => t.spm.plan = .complete ∧
        t.spm.plateaus = [{ plateau 2 0 v.2.1 v.2.2 with elapsed := some 5 }]) = true) := by decide +kernel

theorem test_witness_AbortEndsThePlan_water :
    (let s := withPlan .loaded [plateau 0 50 20 .queued] (unlocking (order 3 256) [order 0 10] true);
      s.ringSafe = true ∧ s.takesCommand 0 (com []) ∧
      (nextOf (exec (.abort 20000 (com [])) s)).any (fun t => t.ric.queue = [] ∧ t.ric.opening = none ∧
        t.ric.contents = some ⟨0, 0, 0, 2000⟩) = true) := by
  unfold State.takesCommand State.ready
  decide +kernel

/-! ### What a taken CAL_WRITE does to its consumers -/

/-- A part whose item n can be written and all others are STORED. -/
def writable (n : Nat) (s : State) : State :=
  let t := unlocked (stored s)
  { t with cls := { t.cls with items := t.cls.items.map (fun i => if i.num = n then { i with source := .blank } else i) } }

/-- What a CAL_WRITE of an item of such a part leaves. -/
def written (n : Nat) (ws : List Word) (s : State) : Option State :=
  nextOf (exec (.calWrite 0 (req (BitVec.ofNat 16 n) (ws ++ List.replicate (16 - ws.length) 0#16))) (writable n s))

/-- A new Smax gives the queued records of a LOADED plan their targets; a record that is over keeps its own. -/
theorem test_write_of_Smax :
    (∀ v ∈ [(withPlan .loaded [{ plateau 0 400 20 .queued with requested := 600, clamped := true }] ready, 500, true),
        (withPlan .complete [{ plateau 0 400 20 (.done .next) with requested := 600, clamped := true }] ready, 400, true),
        (withPlan .loaded [plateau 0 300 20 .queued] ready, 300, false)],
      (written 2 [500#16] v.1).any (fun t => t.smax = 500 ∧
        t.spm.plateaus.map (fun p => (p.target, p.clamped)) = [(v.2.1, v.2.2)]) = true) := by decide +kernel

/-- Capacity 300 for 400: contents are lowered, and a chamber too full loses its orders, two equal ones of another then merging. -/
theorem test_write_of_the_capacity :
    (let s : State := { ring [order 0 5, order 1 290, order 0 6] with
        ric := { (ring [order 0 5, order 1 290, order 0 6]).ric with contents := some ⟨0, 20000, 350900, 300900⟩ } };
      (writable 3 s).ringSafe = true ∧
      (written 3 [300#16] s).any (fun t => t.ric.queue = [order 0 11] ∧
        t.ric.contents = some ⟨0, 20000, 300000, 300900⟩) = true) ∧
    (let s := unlocking (order 3 256) [order 0 10] true;
      (writable 3 { s with time := 20000 }).ringSafe = true ∧
      (written 3 [200#16] { s with time := 20000 }).any (fun t => t.ric.queue = [order 0 10] ∧ t.ric.opening = none ∧
        t.ric.contents = some ⟨0, 0, 0, 2000⟩ ∧ t.ric.bound = 20000) = true) := by decide +kernel

/-- The water of a head that leaves at a capacity write raises no mass above the new capacity (R129; log 16). -/
theorem test_credit_at_a_capacity_write :
    (let s := unlocking (order 3 256) [order 0 10] true;
      let full : State := { s with time := 20000, ric := { s.ric with contents := some ⟨0, 0, 0, 199000⟩ } };
      (writable 3 full).ringSafe = true ∧
      (written 3 [200#16] full).any (fun t => t.ric.queue = [order 0 10] ∧
        t.ric.contents = some ⟨0, 0, 0, 200000⟩) = true) := by decide +kernel

/-- A new index edge opens the revolution again while TURNING, and drops the windows; at a standstill RTB keeps what it has. -/
theorem test_write_of_the_index_edge :
    (written 5 [1#16] (atWindow 0 .waiting false)).any (fun t => t.ric.windows = []) = true ∧
    (written 5 [1#16] (closing 32 (Four.all (corner .ok 1500 0)) ready)).any
      (fun t => t.rtb.pPrev = none ∧ t.rtb.revolution = .unscheduled ∧ t.rtb.p = some 200000) = true ∧
    (written 5 [1#16] (inRun started)).any (fun t => t.rtb = (inRun started).rtb) = true := by decide +kernel

/-- Sdist 80 for 60, item 38 beginning at 110, takes a band below 110 rpm away and raises one that reaches above it. -/
theorem test_write_of_Sdist :
    (∀ v ∈ [(band 0 90 110 .declared, []),
        (band 0 90 111 .calibrated, [{ band 0 110 111 .calibrated with adjusted := true }]),
        (band 0 110 150 .learned, [band 0 110 150 .learned])],
      let s := withItem 38 110#16 (withBandsOf [v.1] started);
      (writable 14 s).bandsSafe = true ∧
      (written 14 [80#16] s).any (fun t => t.sdist = 80 ∧ t.rbt.bands = v.2) = true) := by decide +kernel

/-- A new band item loads both again: into an empty table, over a DECLARED band, and into a full table whose highest LEARNED band
gives way. -/
theorem test_write_of_a_band_item :
    (∀ bs ∈ [[], [band 0 300 450 .declared], (List.range 6).map (fun n => band n (500 + 50 * n) (530 + 50 * n) .learned)],
      (writable 39 (withBandsOf bs started)).bandsSafe = true) ∧
    (written 39 [400#16, 450#16, 7#16] (withBandsOf [] started)).any (fun t =>
      t.rbt.bands = [⟨0, 90, 390, 9999, .calibrated, 0, false, false⟩, ⟨1, 400, 450, 7, .calibrated, 0, false, false⟩] ∧
      t.lkp.notices.bandOverflow = false) = true ∧
    (written 39 [400#16, 450#16, 7#16] (withBandsOf [band 0 300 450 .declared] started)).any (fun t =>
      t.rbt.bands = [⟨0, 90, 450, 9999, .calibrated, 0, false, true⟩] ∧ t.lkp.notices.bandOverflow = false) = true ∧
    (written 39 [400#16, 450#16, 7#16] (withBandsOf
      ((List.range 6).map (fun n => band n (500 + 50 * n) (530 + 50 * n) .learned)) started)).any (fun t =>
      t.rbt.bands.map Band.id = [0, 1, 2, 3, 4, 5] ∧ t.rbt.bands.countP (fun b => b.origin = .calibrated) = 2 ∧
      t.lkp.notices.bandOverflow = true) = true := by decide +kernel

/-- Rest offsets, Ksag, U_init and the table of the class in force reach CSM, IBE and SPM. -/
theorem test_write_of_sampler_and_estimator_items :
    (written 23 [600#16] (sampling 8 started)).any
      (fun t => t.csm.meanSag = some 1100 ∧ t.csm.loadMass = some 2200) = true ∧
    (written 22 [300#16] { sampling 8 started with csm := { (sampling 8 started).csm with meanSag := some 1100 } }).any
      (fun t => t.csm.meanSag = some 1100 ∧ t.csm.loadMass = some 3300) = true ∧
    (written 21 [500#16] started).any (fun t => t.spm.update.u = 500) = true ∧
    (written 21 [500#16] settledState).any (fun t => t.spm.update = settledState.spm.update) = true ∧
    (written 32 (List.replicate 16 5#16) settledState).any
      (fun t => t.ibe.restartPending = true ∧ t.ibe.settle = 0 ∧ t.spm.update.settled = false) = true ∧
    (written 33 (List.replicate 16 5#16) settledState).any (fun t => t.ibe = settledState.ibe) = true := by decide +kernel

/-- A new Shold applies the speed to the timers, and new limits of the speed for an injection test the freeze. -/
theorem test_write_of_ring_speeds :
    (let s := closing 32 (Four.all (corner .ok 1500 0)) ready;
      (written 15 [200#16] { s with rtb := { s.rtb with measured := 1800 } }).any
        (fun t => t.ric.bleedTimer = some 100000 ∧ t.ric.unknownTimer = some 30000000) = true ∧
      (written 15 [100#16] { s with rtb := { s.rtb with measured := 1000 } }).any
        (fun t => t.ric.bleedTimer = none ∧ t.ric.unknownTimer = none) = true) ∧
    (writable 16 (atWindow 0 .serving false)).ringSafe = true ∧
    (written 16 [301#16] (atWindow 0 .serving false)).any
      (fun t => t.ric.frozen = true ∧ t.ric.queue = [order 3 256, order 0 129]) = true ∧
    (written 17 [299#16] (atWindow 0 .serving false)).any (fun t => t.ric.frozen = true) = true := by decide +kernel

/-! ### Rules of computation and invariants -/

theorem test_witness_ForceLimitIsExact_and_Smoothing :
    9999 ≤ 9999 ∧
    (∀ g ∈ [GuardLevel.normal, GuardLevel.test],
      let s := { settledState with
        ibe := { settledState.ibe with smooth := some ⟨3000, 1200⟩, restartSpeed := some 300 }
        spm := { settledState.spm with guard := g } }
      s.ibe.smooth = some ⟨3000, 1200⟩ ∧ s.ibe.restarts 340 = false ∧ s.ibe.restarts 341 = true ∧ s.spm.guard = g ∧
      s.ibe.injectionMark = false) ∧ GuardLevel.normal ≠ .test := by decide +kernel

/-- The invariants hold in states of a running, a paused and a finished plan too. -/
theorem test_witness_StepKeepsTheInvariants :
    ∀ s ∈ [started, running, paused, finished, tripped ready],
      s.imageCurrent = true ∧ s.causesConsistent = true ∧ s.partConsistent = true ∧ s.planConsistent = true ∧
      s.bandsSafe = true ∧ s.ringSafe = true ∧ s.grantSafe = true ∧ s.cls.storeFits = true ∧ s.updateCurrent = true ∧
      s.planCurrent = true := by
  decide +kernel

/-- The force limit of a new part, at its U_init of 1000 g. -/
theorem test_force_limit_of_a_new_part : isForceLimit 1000 8000 80 (forceLimit 1000 8000 80) := by
  unfold isForceLimit
  decide +kernel

/-- The ceiling and the grant record are current in the state after reset, and in a running and a paused plan. -/
theorem test_witness_StepKeepsTheGrantSafe_ceiling_and_record :
    ∀ s ∈ [State.reset, shown started, shown running, shown paused], s.ceilingCurrent ∧ s.recordFits := by
  have fits : ∀ s ∈ [State.reset, shown started, shown running, shown paused],
      s.spm.ceiling = s.ceilingNow ∧ s.spm.update.u = 1000 ∧ s.kf = 8000 ∧ s.guardFactor = 80 ∧
      (s.lkp.part = .starting ∨ (s.spm.grant = s.grantRecord s.spm.grant.speed ∧
        s.grantSpeed s.spm.grant.speed = s.spm.grant.speed)) := by decide +kernel
  intro s m
  obtain ⟨now, u, k, g, record⟩ := fits s m
  exact ⟨Or.inr (now ▸ s.ceilingFits_ceilingNow (by rw [u, k, g]; exact test_force_limit_of_a_new_part)),
    record.elim Or.inl fun r => s.recordFits_of r.1 r.2⟩

end Sys2Proof.Tests
end

section
/-! Nothing that a command does reaches the commands that wait behind it: one lemma per operation that the laws of the state do not
cover, one per owner of a request, and one per way in which a command comes to its operation. -/

namespace Sys2Proof.Machine

/-! ### Operations -/

@[simp] theorem State.ifChanged_pending {f : State → State} (keeps : ∀ u, (f u).pending = u.pending)
    (changed : Nat → Bool) (ns : List Nat) (s : State) : (s.ifChanged changed ns f).pending = s.pending := by
  unfold State.ifChanged
  split
  · exact keeps s
  · rfl

/-- Blocks that take an event one after another keep the queue where each of them does. -/
theorem foldl_pending {α : Type} {take : State → α → State} (keeps : ∀ u k, (take u k).pending = u.pending)
    (ks : List α) (s : State) : (ks.foldl take s).pending = s.pending := by
  induction ks generalizing s with
  | nil => rfl
  | cons k ks ih => exact (ih (take s k)).trans (keeps s k)

@[simp] theorem State.issueCompletion_pending (p : Nat) (order : List Taker) (s : State) :
    (s.issueCompletion p order).pending = s.pending := by
  unfold State.issueCompletion
  dsimp only
  rw [foldl_pending (fun u k => by simp)]
  simp

@[simp] theorem State.closingEdge_pending (last : Nat) (order : List Taker) (s : State) :
    (s.closingEdge last order).pending = s.pending := by
  unfold State.closingEdge
  dsimp only
  split <;> simp

@[simp] theorem State.indexEdge_pending (rising : Bool) (order : List Taker) (s : State) :
    (s.indexEdge rising order).pending = s.pending := by
  unfold State.indexEdge
  split
  · split <;> simp
  · rfl

@[simp] theorem State.standstill_pending (order : List Taker) (s : State) :
    (s.standstill order).pending = s.pending := by
  unfold State.standstill
  dsimp only
  rw [foldl_pending (fun u k => by simp)]
  simp

@[simp] theorem State.dwellTick_pending (s : State) : s.dwellTick.pending = s.pending := by
  unfold State.dwellTick
  dsimp only
  split <;> simp

@[simp] theorem State.openWindow_pending (w : Window) (s : State) : (s.openWindow w).pending = s.pending := by
  unfold State.openWindow
  dsimp only
  split_ifs <;> simp

@[simp] theorem State.strikeSettles_pending (s : State) : s.strikeSettles.pending = s.pending := by
  unfold State.strikeSettles
  dsimp only
  split <;> simp

@[simp] theorem State.lidSettles_pending (s : State) : s.lidSettles.pending = s.pending := by
  unfold State.lidSettles
  dsimp only
  split <;> simp

@[simp] theorem State.beginReset_pending (powerOn : Bool) (reached : Nat) (rst : ResetControl) (s : State) :
    (s.beginReset powerOn reached rst).pending = s.pending := rfl

@[simp] theorem State.loadStore_pending (s : State) : s.loadStore.pending = s.pending := by
  unfold State.loadStore
  dsimp only
  split <;> simp

@[simp] theorem State.endReset_pending (s : State) : s.endReset.pending = s.pending := by
  simp [State.endReset, State.resetGrant, State.loadGuard, State.startTimers, State.holdBlocks]

/-! ### The plan, the bands and the ring at a request -/

@[simp] theorem State.planBecomes_pending (p : PlanState) (s : State) : (s.planBecomes p).pending = s.pending := by
  unfold State.planBecomes
  split <;> simp

@[simp] theorem State.planAppended_pending (s : State) : s.planAppended.pending = s.pending := by
  unfold State.planAppended
  split <;> simp

@[simp] theorem State.rampAgain_pending (old : Plateau) (s : State) : (s.rampAgain old).pending = s.pending := by
  unfold State.rampAgain
  split
  · simp
  · rfl

@[simp] theorem State.amendTaken_pending (p : Plateau) (v : PlateauParams) (s : State) :
    (s.amendTaken p v).pending = s.pending := by
  unfold State.amendTaken
  dsimp only
  split_ifs <;> simp

@[simp] theorem State.withdrawQueued_pending (slot : Nat) (s : State) : (s.withdrawQueued slot).pending = s.pending := by
  unfold State.withdrawQueued
  dsimp only
  split <;> simp

@[simp] theorem State.startPlan_pending (s : State) : s.startPlan.pending = s.pending := by simp [State.startPlan]

@[simp] theorem State.resumePlan_pending (s : State) : s.resumePlan.pending = s.pending := by simp [State.resumePlan]

@[simp] theorem State.abortPlan_pending (s : State) : s.abortPlan.pending = s.pending := by simp [State.abortPlan]

@[simp] theorem State.clearPlan_pending (s : State) : s.clearPlan.pending = s.pending := by simp [State.clearPlan]

@[simp] theorem State.amendLoad_pending (source : Option (Fin 4)) (s : State) :
    (s.amendLoad source).pending = s.pending := by
  unfold State.amendLoad
  dsimp only
  split <;> simp

@[simp] theorem State.injectTaken_pending (v : Injection) (s : State) : (s.injectTaken v).pending = s.pending := by
  simp [State.injectTaken]

/-! ### The store at a request -/

@[simp] theorem State.estimatorWrite_pending (changed : Nat → Bool) (s : State) :
    (s.estimatorWrite changed).pending = s.pending := by
  unfold State.estimatorWrite
  dsimp only
  split <;> simp

@[simp] theorem State.capacityWrite_pending (s : State) : s.capacityWrite.pending = s.pending := by
  unfold State.capacityWrite State.removeOrders State.lowerContents
  dsimp only
  split <;> simp

@[simp] theorem State.consumeWrite_pending (changed : Nat → Bool) (s : State) :
    (s.consumeWrite changed).pending = s.pending := by
  simp [State.consumeWrite]

@[simp] theorem State.takeWrite_pending (n : Nat) (ws : List Word) (s : State) :
    (s.takeWrite n ws).pending = s.pending := by
  simp [State.takeWrite]

@[simp] theorem State.lockService_pending (s : State) : s.lockService.pending = s.pending := by
  unfold State.lockService
  dsimp only
  split <;> simp

@[simp] theorem State.programmingDone_pending (s : State) : s.programmingDone.pending = s.pending := by
  unfold State.programmingDone
  split <;> rfl

/-! ### Owners -/

/-- An owner leaves the waiting commands alone. -/
def Owner.keepsQueue (own : Owner) : Prop := ∀ f s, (own f s).state.pending = s.pending

@[simp] theorem State.answer_state (s : State) (o : Outcome) : (s.answer o).state = s := rfl

@[simp] theorem State.answerWith_state (s : State) (o : Outcome) (ws : List Word) : (s.answerWith o ws).state = s := rfl

theorem State.withSlot_pending {s : State} {g : Plateau → Reply} (keeps : ∀ p, (g p).state.pending = s.pending)
    (slot : Nat) : (s.withSlot slot g).state.pending = s.pending := by
  unfold State.withSlot
  split
  · rfl
  · split
    · rfl
    · exact keeps _

theorem State.withBand_pending {s : State} {g : Band → Reply} (keeps : ∀ b, (g b).state.pending = s.pending)
    (id : Nat) : (s.withBand id g).state.pending = s.pending := by
  unfold State.withBand
  split
  · rfl
  · split
    · rfl
    · exact keeps _

theorem ownNothing_keepsQueue : Owner.keepsQueue ownNothing := fun _ _ => rfl

theorem ownLookupPlan_keepsQueue : Owner.keepsQueue ownLookupPlan := fun _ _ => rfl

theorem ownLookupPlateau_keepsQueue : Owner.keepsQueue ownLookupPlateau :=
  fun _ s => State.withSlot_pending (s := s) (fun _ => rfl) _

theorem ownLookupGrant_keepsQueue : Owner.keepsQueue ownLookupGrant := by
  intro f s
  unfold ownLookupGrant
  dsimp only
  split <;> rfl

theorem ownLookupEstimate_keepsQueue : Owner.keepsQueue ownLookupEstimate := by
  intro f s
  unfold ownLookupEstimate
  split <;> rfl

theorem State.delayedLookup_pending (k : DelayedKey) (p : Port) (s : State) :
    (s.delayedLookup k p).state.pending = s.pending := by
  unfold State.delayedLookup
  split
  · rfl
  · split <;> rfl

theorem ownLookupEstimateDelayed_keepsQueue : Owner.keepsQueue ownLookupEstimateDelayed := by
  intro f s
  unfold ownLookupEstimateDelayed
  dsimp only
  split
  · split <;> rfl
  · exact State.delayedLookup_pending _ _ _

theorem ownLookupLoad_keepsQueue : Owner.keepsQueue ownLookupLoad := fun _ _ => rfl

theorem ownLookupBand_keepsQueue : Owner.keepsQueue ownLookupBand :=
  fun _ s => State.withBand_pending (s := s) (fun _ => rfl) _

theorem ownLookupChamber_keepsQueue : Owner.keepsQueue ownLookupChamber := by
  intro f s
  unfold ownLookupChamber
  split <;> rfl

theorem ownLookupQueue_keepsQueue : Owner.keepsQueue ownLookupQueue := by
  intro f s
  unfold ownLookupQueue
  split
  · rfl
  · split
    · rfl
    · split <;> rfl

theorem ownLookupStatus_keepsQueue : Owner.keepsQueue ownLookupStatus := by
  intro f s
  unfold ownLookupStatus
  dsimp only
  split <;> rfl

theorem ownLookupCal_keepsQueue : Owner.keepsQueue ownLookupCal := by
  intro f s
  unfold ownLookupCal
  split
  · rfl
  · split <;> rfl

theorem ownAppend_keepsQueue : Owner.keepsQueue ownAppend := by
  intro f s
  unfold ownAppend
  dsimp only
  split_ifs <;> simp

theorem State.amendQueued_pending (slot : Nat) (v : PlateauParams) (s : State) :
    (s.amendQueued slot v).state.pending = s.pending := by
  unfold State.amendQueued
  split <;> rfl

theorem State.amendActive_pending (p : Plateau) (v : PlateauParams) (s : State) :
    (s.amendActive p v).state.pending = s.pending := by
  unfold State.amendActive
  split_ifs <;> simp

theorem ownAmendPlateau_keepsQueue : Owner.keepsQueue ownAmendPlateau := by
  intro f s
  refine State.withSlot_pending (fun p => ?_) _
  split
  · exact State.amendQueued_pending _ _ s
  · exact State.amendActive_pending p _ s
  · rfl
  · rfl

theorem ownWithdraw_keepsQueue : Owner.keepsQueue ownWithdraw := by
  intro f s
  refine State.withSlot_pending (fun p => ?_) _
  split <;> simp

theorem ownRetirePlateau_keepsQueue : Owner.keepsQueue ownRetirePlateau := by
  intro f s
  refine State.withSlot_pending (fun p => ?_) _
  split <;> rfl

theorem ownStart_keepsQueue : Owner.keepsQueue ownStart := by
  intro f s
  unfold ownStart
  split_ifs <;> simp

theorem ownPause_keepsQueue : Owner.keepsQueue ownPause := by
  intro f s
  unfold ownPause
  split <;> simp

theorem ownResume_keepsQueue : Owner.keepsQueue ownResume := by
  intro f s
  unfold ownResume
  split <;> simp

theorem ownNext_keepsQueue : Owner.keepsQueue ownNext := by
  intro f s
  refine State.withSlot_pending (fun p => ?_) _
  split <;> simp

theorem ownAbort_keepsQueue : Owner.keepsQueue ownAbort := by
  intro f s
  unfold ownAbort
  split <;> simp

theorem ownClear_keepsQueue : Owner.keepsQueue ownClear := by
  intro f s
  unfold ownClear
  split <;> simp

theorem ownGuard_keepsQueue : Owner.keepsQueue ownGuard := by
  intro f s
  unfold ownGuard
  split
  · rfl
  · split <;> simp

theorem ownDeclare_keepsQueue : Owner.keepsQueue ownDeclare := by
  intro f s
  unfold ownDeclare
  split
  · split <;> simp
  · rfl

theorem ownRetireBand_keepsQueue : Owner.keepsQueue ownRetireBand := by
  intro f s
  refine State.withBand_pending (fun b => ?_) _
  split <;> simp

theorem ownPin_keepsQueue : Owner.keepsQueue ownPin := by
  intro f s
  unfold ownPin
  split
  · rfl
  · refine State.withBand_pending (fun b => ?_) _
    split <;> simp

theorem ownAmendLoad_keepsQueue : Owner.keepsQueue ownAmendLoad := by
  intro f s
  unfold ownAmendLoad
  split
  · rfl
  · split <;> simp

theorem ownInject_keepsQueue : Owner.keepsQueue ownInject := by
  intro f s
  unfold ownInject
  dsimp only
  split <;> simp

theorem ownFlush_keepsQueue : Owner.keepsQueue ownFlush := fun _ _ => rfl

theorem ownCancel_keepsQueue : Owner.keepsQueue ownCancel := fun _ s => by simp [ownCancel]

theorem ownClearTrip_keepsQueue : Owner.keepsQueue ownClearTrip := by
  intro f s
  unfold ownClearTrip
  split_ifs <;> simp

theorem ownQuiet_keepsQueue : Owner.keepsQueue ownQuiet := by
  intro f s
  unfold ownQuiet
  dsimp only
  split_ifs <;> simp [State.quietTaken]

theorem ownReset_keepsQueue : Owner.keepsQueue ownReset := fun _ _ => rfl

theorem ownCalWrite_keepsQueue : Owner.keepsQueue ownCalWrite := by
  intro f s
  unfold ownCalWrite
  split
  · dsimp only
    split
    · rfl
    · split <;> simp
  · rfl

theorem ownKeyVerify_keepsQueue : Owner.keepsQueue ownKeyVerify := by
  intro f s
  unfold ownKeyVerify
  split
  · rfl
  · split_ifs <;> rfl

theorem ownLock_keepsQueue : Owner.keepsQueue ownLock := fun _ s => by simp [ownLock]

theorem lookupOwner_keepsQueue (f : Frame) : (lookupOwner f).keepsQueue := by
  unfold lookupOwner
  split
  · exact ownLookupPlan_keepsQueue
  · exact ownLookupPlateau_keepsQueue
  · exact ownLookupGrant_keepsQueue
  · split
    · exact ownLookupEstimateDelayed_keepsQueue
    · exact ownLookupEstimate_keepsQueue
  · exact ownLookupBand_keepsQueue
  · exact ownLookupChamber_keepsQueue
  · exact ownLookupQueue_keepsQueue
  · exact ownLookupLoad_keepsQueue
  · exact ownLookupStatus_keepsQueue
  · exact ownLookupCal_keepsQueue
  · exact ownNothing_keepsQueue

theorem commandOwner_keepsQueue (f : Frame) : (commandOwner f).keepsQueue := by
  unfold commandOwner
  split
  · exact ownStart_keepsQueue
  · exact ownPause_keepsQueue
  · exact ownResume_keepsQueue
  · exact ownNext_keepsQueue
  · exact ownAbort_keepsQueue
  · exact ownClear_keepsQueue
  · exact ownClearTrip_keepsQueue
  · exact ownFlush_keepsQueue
  · exact ownCancel_keepsQueue
  · exact ownGuard_keepsQueue
  · exact ownQuiet_keepsQueue
  · exact ownLock_keepsQueue
  · exact ownReset_keepsQueue
  · exact ownNothing_keepsQueue

theorem ownerOf_keepsQueue (f : Frame) : (ownerOf f).keepsQueue := by
  unfold ownerOf
  split
  · exact lookupOwner_keepsQueue f
  · exact ownAppend_keepsQueue
  · split
    · exact ownAmendPlateau_keepsQueue
    · exact ownAmendLoad_keepsQueue
  · exact ownWithdraw_keepsQueue
  · split
    · exact ownRetirePlateau_keepsQueue
    · exact ownRetireBand_keepsQueue
  · exact commandOwner_keepsQueue f
  · exact ownInject_keepsQueue
  · exact ownDeclare_keepsQueue
  · exact ownPin_keepsQueue
  · exact ownCalWrite_keepsQueue
  · exact ownKeyVerify_keepsQueue
  · exact ownNothing_keepsQueue

/-! ### A frame's way to its owner -/

@[simp] theorem State.cancelledBy_pending (f : Frame) (s : State) : (s.cancelledBy f).pending = s.pending := by
  unfold State.cancelledBy
  split <;> simp

@[simp] theorem State.receiveBusy_pending (f : Frame) (s : State) : (s.receiveBusy f).pending = s.pending := by
  unfold State.receiveBusy
  split <;> simp

theorem State.examine_pending {own : Owner} (keeps : own.keepsQueue) (f : Frame) (s : State) :
    (s.examine own f).state.pending = s.pending := by
  unfold State.examine
  split_ifs
  · rfl
  · rfl
  · exact keeps f s

theorem State.dealAddressed_pending {own : Owner} (keeps : own.keepsQueue) (f : Frame) (s : State) :
    (s.dealAddressed own f).state.pending = s.pending := by
  have deals := keeps f s
  unfold State.dealAddressed
  split
  · rfl
  · split <;> simp [deals]
  · split <;> simp [deals]
  · split <;> simp [deals, State.examine_pending keeps]
  · exact State.examine_pending keeps f s

theorem State.dealBroadcast_pending {own : Owner} (keeps : own.keepsQueue) (f : Frame) (s : State) :
    (s.dealBroadcast own f).pending = s.pending := by
  unfold State.dealBroadcast
  split
  · rfl
  · simp
  · rfl
  · dsimp only
    split
    · exact (keeps f _).trans (by simp)
    · simp
  · split
    · exact keeps f s
    · rfl

theorem State.deliver_pending {own : Owner} (keeps : own.keepsQueue) (f : Frame) (s : State) :
    (s.deliver own f).pending = s.pending := by
  unfold State.deliver
  dsimp only
  split
  · simp
  · unfold State.receiveBroadcast
    split
    · simp [State.dealBroadcast_pending keeps]
    · simp
  · unfold State.receiveAddressed
    dsimp only
    split
    · simp [State.finish_frame, State.dealAddressed_pending keeps]
    · split <;> simp [State.putWaiting]

theorem State.takeByte_pending (p : Port) (bs : List Byte) (s : State) :
    (s.takeByte ownerOf p bs).pending = s.pending := by
  unfold State.takeByte
  split
  · simp
  · split
    · dsimp only
      split
      · rw [State.deliver_pending (ownerOf_keepsQueue _)]
        simp
      · simp
    · simp

theorem State.takeCharacter_pending (p : Port) (b : Byte) (stopBit : Bool) (s : State) :
    (s.takeCharacter ownerOf p b stopBit).pending = s.pending := by
  unfold State.takeCharacter
  dsimp only
  split
  · simp
  · split
    · exact State.takeByte_pending p _ s
    · simp

theorem State.gapTimeout_pending (p : Port) (s : State) : (s.gapTimeout p).pending = s.pending := by
  unfold State.gapTimeout
  dsimp only
  split <;> simp

theorem State.answerSent_pending (p : Port) (s : State) : (s.answerSent p).pending = s.pending := by
  unfold State.answerSent
  split
  · rfl
  · split
    · rfl
    · split <;> simp

/-! ### Commands -/

/-- An outcome is a next state with the waiting commands of `s` untouched. -/
def answersNext (s : State) (o : Host.Outcome State Fault Refusal) : Prop := ∃ t, o = .next t ∧ t.pending = s.pending

theorem answersNext_next {s t : State} (h : t.pending = s.pending) : answersNext s (.next t) := ⟨t, rfl, h⟩

theorem received_answersNext {own : Owner} (keeps : own.keepsQueue) (after : Nat) (f : Frame) (s : State) :
    answersNext s (received after own f s) :=
  answersNext_next (State.deliver_pending keeps f _)

theorem fromOutside_answersNext {f : State → State} (keeps : ∀ u, (f u).pending = u.pending) (after : Nat) (s : State) :
    answersNext s (fromOutside after f s) := by
  refine answersNext_next ?_
  split
  · rfl
  · exact keeps _

theorem onExpiry_answersNext {f : State → State} (keeps : ∀ u, (f u).pending = u.pending) (timer : Option Nat)
    (s : State) : answersNext s (onExpiry timer f s) := by
  unfold onExpiry
  split
  · exact answersNext_next rfl
  · refine answersNext_next ?_
    split
    · rfl
    · exact keeps _

theorem execResetNAsserted_answersNext (after reached : Nat) (s : State) :
    answersNext s (execResetNAsserted after reached s) := by
  refine answersNext_next ?_
  split <;> rfl

theorem execResetNNegated_answersNext (after : Nat) (s : State) : answersNext s (execResetNNegated after s) := by
  refine answersNext_next ?_
  split_ifs <;> simp

theorem execResetTimerExpiry_answersNext (s : State) : answersNext s (execResetTimerExpiry s) := by
  unfold execResetTimerExpiry
  split
  · exact answersNext_next rfl
  · refine answersNext_next ?_
    split <;> simp

theorem execEndOfStartUp_answersNext (s : State) : answersNext s (execEndOfStartUp s) := by
  unfold execEndOfStartUp
  exact onExpiry_answersNext (fun u => by simp) _ s

theorem execIndexOverdue_answersNext (s : State) : answersNext s (execIndexOverdue s) := by
  unfold execIndexOverdue
  exact onExpiry_answersNext (fun u => by simp) _ s

theorem execQuietCountdownExpiry_answersNext (s : State) : answersNext s (execQuietCountdownExpiry s) := by
  unfold execQuietCountdownExpiry
  exact onExpiry_answersNext (fun u => by simp) _ s

theorem execWakeTimerExpiry_answersNext (s : State) : answersNext s (execWakeTimerExpiry s) := by
  unfold execWakeTimerExpiry
  exact onExpiry_answersNext (fun u => by simp) _ s

theorem execSlotEvent_answersNext (codes : Four Code) (s : State) : answersNext s (execSlotEvent codes s) := by
  unfold execSlotEvent
  split
  · exact answersNext_next rfl
  · exact answersNext_next (by simp)

theorem execGiveUpTimerExpiry_answersNext (s : State) : answersNext s (execGiveUpTimerExpiry s) := by
  unfold execGiveUpTimerExpiry
  split
  · exact onExpiry_answersNext (fun u => by simp) _ s
  · exact answersNext_next rfl
  · exact answersNext_next rfl

theorem execDiscardTimerExpiry_answersNext (s : State) : answersNext s (execDiscardTimerExpiry s) := by
  unfold execDiscardTimerExpiry
  split
  · exact onExpiry_answersNext (fun u => by simp) _ s
  · exact answersNext_next rfl
  · exact answersNext_next rfl

theorem execOpenInstant_answersNext (chamber : Fin 4) (s : State) : answersNext s (execOpenInstant chamber s) := by
  unfold execOpenInstant
  split
  · exact answersNext_next rfl
  · exact answersNext_next (by simp)

theorem execCloseInstant_answersNext (s : State) : answersNext s (execCloseInstant s) := by
  unfold execCloseInstant
  split
  · exact answersNext_next rfl
  · exact answersNext_next (by simp)

theorem execStrikePinChange_answersNext (after : Nat) (level : Bool) (s : State) :
    answersNext s (execStrikePinChange after level s) := by
  refine answersNext_next ?_
  split <;> rfl

theorem execLidlkPinChange_answersNext (after : Nat) (level : Bool) (s : State) :
    answersNext s (execLidlkPinChange after level s) := by
  refine answersNext_next ?_
  split <;> rfl

/-- Settles O3, command by command: an event by its operation, a request by its owner. -/
theorem everyCommandAnswersNext : Obligations.EveryCommandAnswersNext := by
  intro c s
  change answersNext s (exec c s)
  cases c with
  | powerOn after reached => exact answersNext_next rfl
  | resetNAsserted after reached => exact execResetNAsserted_answersNext after reached s
  | resetNNegated after => exact execResetNNegated_answersNext after s
  | resetTimerExpiry => exact execResetTimerExpiry_answersNext s
  | endOfStartUp => exact execEndOfStartUp_answersNext s
  | indexEdge after rising order => exact fromOutside_answersNext (fun u => u.indexEdge_pending rising order) after s
  | slotEvent codes => exact execSlotEvent_answersNext codes s
  | restTimerExpiry order => exact onExpiry_answersNext (fun u => u.standstill_pending order) _ s
  | indexOverdue => exact execIndexOverdue_answersNext s
  | staticTimerExpiry codes => exact onExpiry_answersNext (fun u => by simp) _ s
  | giveUpTimerExpiry => exact execGiveUpTimerExpiry_answersNext s
  | discardTimerExpiry => exact execDiscardTimerExpiry_answersNext s
  | dwellTick => exact onExpiry_answersNext State.dwellTick_pending _ s
  | openInstant chamber => exact execOpenInstant_answersNext chamber s
  | closeInstant => exact execCloseInstant_answersNext s
  | bleedTick => exact onExpiry_answersNext (fun u => by simp) _ s
  | unknownTimerExpiry => exact onExpiry_answersNext (fun u => by simp) _ s
  | strikePinChange after level => exact execStrikePinChange_answersNext after level s
  | strikeDebounceExpiry => exact onExpiry_answersNext State.strikeSettles_pending _ s
  | lidlkPinChange after level => exact execLidlkPinChange_answersNext after level s
  | lidDebounceExpiry => exact onExpiry_answersNext State.lidSettles_pending _ s
  | frameGapTimeout port => exact answersNext_next (State.gapTimeout_pending port s)
  | answerSent after port => exact answersNext_next (State.answerSent_pending port _)
  | quietCountdownExpiry => exact execQuietCountdownExpiry_answersNext s
  | wakeTimerExpiry => exact execWakeTimerExpiry_answersNext s
  | programmingDone after => exact fromOutside_answersNext State.programmingDone_pending after s
  | lookupPlan after r => exact received_answersNext ownLookupPlan_keepsQueue after _ s
  | lookupPlateau after r => exact received_answersNext ownLookupPlateau_keepsQueue after _ s
  | lookupGrant after r => exact received_answersNext ownLookupGrant_keepsQueue after _ s
  | lookupEstimate after r => exact received_answersNext ownLookupEstimate_keepsQueue after _ s
  | lookupEstimateDelayed after r => exact received_answersNext ownLookupEstimateDelayed_keepsQueue after _ s
  | lookupLoad after r => exact received_answersNext ownLookupLoad_keepsQueue after _ s
  | lookupBand after r => exact received_answersNext ownLookupBand_keepsQueue after _ s
  | lookupChamber after r => exact received_answersNext ownLookupChamber_keepsQueue after _ s
  | lookupQueue after r => exact received_answersNext ownLookupQueue_keepsQueue after _ s
  | lookupStatus after r => exact received_answersNext ownLookupStatus_keepsQueue after _ s
  | lookupCal after r => exact received_answersNext ownLookupCal_keepsQueue after _ s
  | append after r => exact received_answersNext ownAppend_keepsQueue after _ s
  | amendPlateau after r => exact received_answersNext ownAmendPlateau_keepsQueue after _ s
  | amendLoad after r => exact received_answersNext ownAmendLoad_keepsQueue after _ s
  | withdraw after r => exact received_answersNext ownWithdraw_keepsQueue after _ s
  | retirePlateau after r => exact received_answersNext ownRetirePlateau_keepsQueue after _ s
  | retireBand after r => exact received_answersNext ownRetireBand_keepsQueue after _ s
  | declare after r => exact received_answersNext ownDeclare_keepsQueue after _ s
  | pin after r => exact received_answersNext ownPin_keepsQueue after _ s
  | inject after r => exact received_answersNext ownInject_keepsQueue after _ s
  | start after r => exact received_answersNext ownStart_keepsQueue after _ s
  | pause after r => exact received_answersNext ownPause_keepsQueue after _ s
  | resume after r => exact received_answersNext ownResume_keepsQueue after _ s
  | next after r => exact received_answersNext ownNext_keepsQueue after _ s
  | abort after r => exact received_answersNext ownAbort_keepsQueue after _ s
  | clear after r => exact received_answersNext ownClear_keepsQueue after _ s
  | guard after r => exact received_answersNext ownGuard_keepsQueue after _ s
  | flush after r => exact received_answersNext ownFlush_keepsQueue after _ s
  | cancel after r => exact received_answersNext ownCancel_keepsQueue after _ s
  | clearTrip after r => exact received_answersNext ownClearTrip_keepsQueue after _ s
  | quiet after r => exact received_answersNext ownQuiet_keepsQueue after _ s
  | reset after r => exact received_answersNext ownReset_keepsQueue after _ s
  | lock after r => exact received_answersNext ownLock_keepsQueue after _ s
  | calWrite after r => exact received_answersNext ownCalWrite_keepsQueue after _ s
  | keyVerify after r => exact received_answersNext ownKeyVerify_keepsQueue after _ s
  | characterReceived after port byte stopBit =>
    exact answersNext_next (State.takeCharacter_pending port byte stopBit _)

end Sys2Proof.Machine
end

section
/-! The beginning of a reset: every block held, and what the store keeps of a programming that is cut off. -/

namespace Sys2Proof.Machine

/-- The items after a programming is cut off: those of before where none was under way, else the item programmed with its words as
far as they were reached (R181, log 6). -/
def Cls.cutOff (reached : Nat) (c d : Cls) : Prop :=
  (c.programming = none → d.items = c.items) ∧
  ∀ p, c.programming = some p → d.items = c.items.map (fun i =>
    if i.num = p.item then
      { i with
        stored := p.words.take reached ++ List.replicate (p.words.length - reached) 0xFFFF#16
        checkOk := decide (p.words.length < reached) }
    else i)

theorem Cls.beginReset_programming (powerOn : Bool) (reached : Nat) (c : Cls) :
    (c.beginReset powerOn reached).programming = none := by
  unfold Cls.beginReset Cls.cutProgramming
  cases h : c.programming with
  | none => exact h
  | some p => rfl

theorem Cls.beginReset_lockout (powerOn : Bool) (reached : Nat) (c : Cls) :
    (c.beginReset powerOn reached).lockout = (c.lockout && !powerOn) := rfl

theorem Cls.beginReset_cutOff (powerOn : Bool) (reached : Nat) (c : Cls) :
    c.cutOff reached (c.beginReset powerOn reached) := by
  unfold Cls.cutOff Cls.beginReset Cls.cutProgramming
  cases h : c.programming with
  | none => exact ⟨fun _ => rfl, fun _ e => (nomatch e)⟩
  | some p =>
    refine ⟨fun e => (nomatch e), fun q e => ?_⟩
    obtain rfl : p = q := Option.some.inj e
    simp [Cls.update, cutWords, blankWords, blankWord]

theorem State.beginReset_held (powerOn : Bool) (reached : Nat) (rst : ResetControl) (s : State) :
    (s.beginReset powerOn reached rst).heldByReset := by
  unfold State.heldByReset
  exact ⟨rfl, rfl, rfl, rfl, rfl, rfl, rfl, rfl, rfl, rfl, rfl, rfl, rfl, rfl, rfl, rfl, rfl, rfl, rfl, rfl, rfl, rfl,
    s.cls.beginReset_programming powerOn reached⟩

/-- The lines and the capture timer while a reset is in force (R2, R142, R157). -/
theorem State.beginReset_lines {powerOn : Bool} {reached : Nat} {rst : ResetControl} {s : State}
    (inForce : (s.beginReset powerOn reached rst).inReset = true) :
    (s.beginReset powerOn reached rst).tripLine = true ∧ (s.beginReset powerOn reached rst).valveLine = false ∧
    (s.beginReset powerOn reached rst).capture = 0 :=
  ⟨rfl, rfl, by rw [State.capture, if_pos inForce]⟩

theorem execResetNAsserted_again {s : State} (again : s.rst.resetN = true) (after reached : Nat) :
    exec (.resetNAsserted after reached) s = .next (s.elapse after) := by
  change Host.Outcome.next (if s.rst.resetN then _ else _) = _
  rw [if_pos again]

theorem execResetNAsserted_begins {s : State} (first : s.rst.resetN = false) (after reached : Nat) :
    exec (.resetNAsserted after reached) s =
      .next ((s.elapse after).beginReset false reached ⟨s.rst.timer, true⟩) := by
  change Host.Outcome.next (if s.rst.resetN then _ else _) = _
  rw [if_neg (by simp [first])]
  rfl

/-- Settles O5: POWER_ON and RESET_N each begin a reset, a reset asserted again does not. -/
theorem resetsHoldEveryBlock : Obligations.ResetsHoldEveryBlock := by
  intro after reached s
  dsimp only
  refine ⟨?_, fun first => ?_, fun again => execResetNAsserted_again again after reached⟩
  · obtain ⟨trip, valve, capture⟩ := State.beginReset_lines (powerOn := true) (reached := reached) (s := s.elapse after)
      (rst := ⟨some (s.time + after + powerOnTime), s.rst.resetN⟩) rfl
    exact ⟨_, rfl, State.beginReset_held .., rfl, Bool.and_false _, trip, valve,
      capture, rfl, rfl, s.cls.beginReset_cutOff true reached⟩
  · obtain ⟨trip, valve, capture⟩ := State.beginReset_lines (powerOn := false) (reached := reached) (s := s.elapse after)
      (rst := ⟨s.rst.timer, true⟩) (by simp [State.inReset, State.beginReset, State.holdBlocks])
    exact ⟨_, execResetNAsserted_begins first after reached, State.beginReset_held .., rfl,
      Bool.and_true _, trip, valve, capture, rfl, rfl,
      s.cls.beginReset_cutOff false reached⟩

end Sys2Proof.Machine
end

section
/-! The load of the store, of the band table and of the first ceiling at the end of a reset. -/

namespace Sys2Proof.Machine

/-! ### Values in force -/

/-- The value in force of an item that no DEFAULTED store overrides, by its words held. -/
theorem Cls.value_held (c : Cls) {n : Nat} (h : overridden n = false) :
    c.value n = ((c.items.find? (fun k => k.num = n)).map (fun k => wordAt k.held 0)).getD 0 := by
  unfold Cls.value Cls.inForce Cls.item
  simp only [h, Bool.false_and, Bool.false_eq_true, if_false]
  cases c.items.find? (fun k => k.num = n) <;> rfl

/-- Smax, Kf, Lcross and Sdist in force while the store is DEFAULTED (R179). -/
theorem Cls.value_defaulted {c : Cls} (h : c.defaulted = true) :
    c.value 2 = 400 ∧ c.value 10 = 8000 ∧ c.value 11 = 4000 ∧ c.value 14 = 60 := by
  have default (n : Nat) (o : overridden n = true) : c.value n = wordAt (defaultOf n) 0 := by
    unfold Cls.value Cls.inForce
    rw [o, h]
    rfl
  exact ⟨default 2 rfl, default 10 rfl, default 11 rfl, default 14 rfl⟩

theorem Cls.defaulted_iff (c : Cls) : c.defaulted = true ↔ ∃ k ∈ c.items, k.source = .fault := by
  simp [Cls.defaulted]

theorem Cls.item_of_mem {c : Cls} (distinct : (c.items.map Item.num).Nodup) {k : Item} (mem : k ∈ c.items) :
    c.item k.num = some k := by
  unfold Cls.item
  cases h : c.items.find? (fun i => i.num = k.num) with
  | none => exact absurd (List.find?_eq_none.1 h k mem) (by simp)
  | some i =>
    have num : i.num = k.num := by simpa using List.find?_some h
    rw [List.inj_on_of_nodup_map distinct (List.mem_of_find?_eq_some h) mem num]

theorem Cls.inForce_held {c : Cls} (distinct : (c.items.map Item.num).Nodup) {k : Item} (mem : k ∈ c.items)
    (own : c.defaulted = false ∨ (k.num ≠ 2 ∧ k.num ≠ 10 ∧ k.num ≠ 11 ∧ k.num ≠ 14)) :
    c.inForce k.num = k.held := by
  have free : (overridden k.num && c.defaulted) = false := by
    rcases own with h | ⟨h2, h10, h11, h14⟩
    · simp [h]
    · simp [overridden, h2, h10, h11, h14]
  unfold Cls.inForce
  rw [free, c.item_of_mem distinct mem]
  rfl

/-! ### The load of the store -/

@[simp] theorem Item.fail_num (i : Item) : i.fail.num = i.num := rfl

@[simp] theorem Item.resolve_num (i : Item) : i.resolve.num = i.num := by
  unfold Item.resolve
  split <;> rfl

/-- An item that does not load stands at its default. -/
theorem Item.resolve_fault {i : Item} {spec : ItemSpec} (known : specOf i.num = some spec)
    (fault : i.resolve.source = .fault) : i.resolve.held = spec.default := by
  unfold Item.resolve at *
  rw [known] at *
  dsimp only at *
  rw [fault]
  rfl

theorem Cls.update_items (p : Nat → Bool) (f : Item → Item) (c : Cls) :
    (c.update p f).items = c.items.map (fun i => if p i.num then f i else i) := rfl

theorem Cls.update_nums {f : Item → Item} (keeps : ∀ i, (f i).num = i.num) (p : Nat → Bool) (c : Cls) :
    (c.update p f).items.map Item.num = c.items.map Item.num := by
  rw [Cls.update_items, List.map_map]
  refine List.map_congr_left fun i _ => ?_
  dsimp only [Function.comp]
  split
  · exact keeps i
  · rfl

/-- Where item 38 did not load it stands at the default for the Sdist of a DEFAULTED store. -/
def Cls.bandAtDefault (c : Cls) : Prop :=
  ∀ i ∈ c.items, i.num = 38 → i.source = .fault → i.held = defaultBand 60

/-- Forming the default of item 38 changes nothing: the store is DEFAULTED then, with Sdist at 60 rpm. -/
theorem Cls.formBand_eq {c : Cls} (h : c.bandAtDefault) : c.formBand = c := by
  have items : c.formBand.items = c.items := by
    unfold Cls.formBand
    rw [Cls.update_items]
    refine (List.map_congr_left fun i mem => ?_).trans (List.map_id _)
    split_ifs with num fault
    · obtain ⟨-, -, -, sdist⟩ := c.value_defaulted (c.defaulted_iff.2 ⟨i, mem, fault⟩)
      rw [sdist, ← h i mem (of_decide_eq_true num) fault]
      rfl
    · rfl
    · rfl
  exact congrArg (fun is => { c with items := is }) items

/-- The store with every item read by R179. -/
def Cls.resolved (c : Cls) : Cls := c.update (fun _ => true) Item.resolve

/-- The store with Shold, Sinj_lo and Sinj_hi back at their defaults where they do not agree (R185). -/
def Cls.retested (c : Cls) : Cls :=
  if c.rangeAgrees then c else c.update (fun n => n = 15 || n = 16 || n = 17) Item.fail

theorem Cls.resolved_items (c : Cls) : c.resolved.items = c.items.map Item.resolve := rfl

theorem Cls.resolved_bandAtDefault (c : Cls) : c.resolved.bandAtDefault := by
  intro i mem num fault
  obtain ⟨k, -, rfl⟩ := List.mem_map.1 (c.resolved_items ▸ mem)
  have known : specOf k.num = some ⟨38, false, 3, defaultBand 60⟩ := by
    rw [← k.resolve_num, num]
    decide
  exact Item.resolve_fault known fault

theorem Cls.retested_bandAtDefault {c : Cls} (h : c.bandAtDefault) : c.retested.bandAtDefault := by
  unfold Cls.retested
  split
  · exact h
  · intro i mem num fault
    obtain ⟨k, memk, rfl⟩ := List.mem_map.1 (Cls.update_items .. ▸ mem)
    split_ifs at num fault with failing
    · rw [show k.num = 38 from num] at failing
      exact absurd failing (by decide)
    · rw [if_neg failing]
      exact h k memk num fault

/-- The load is the reading of the items and the re-test, with service LOCKED. -/
theorem Cls.load_eq (c : Cls) : c.load = { c.resolved.retested with unlocked := false } :=
  congrArg (fun d : Cls => { d with unlocked := false })
    (Cls.formBand_eq (Cls.retested_bandAtDefault c.resolved_bandAtDefault))

theorem Cls.rangeAgrees_iff (c : Cls) :
    c.rangeAgrees = true ↔ c.value 15 ≤ c.value 16 ∧ c.value 16 < c.value 17 := by
  simp [Cls.rangeAgrees]

theorem Cls.retested_agree {c : Cls} (h : c.rangeAgrees = true) : c.retested = c := by
  rw [Cls.retested, if_pos h]

/-- The items after a re-test that fails: 15, 16 and 17 at 150, 200 and 400 rpm with source FAULT. -/
theorem Cls.retested_disagree {c : Cls} (h : ¬ c.rangeAgrees = true) :
    c.retested.items = c.items.map (fun k =>
      if k.num = 15 then { k with source := .fault, held := [150#16] }
      else if k.num = 16 then { k with source := .fault, held := [200#16] }
      else if k.num = 17 then { k with source := .fault, held := [400#16] }
      else k) := by
  have d15 : defaultOf 15 = [150#16] := by decide
  have d16 : defaultOf 16 = [200#16] := by decide
  have d17 : defaultOf 17 = [400#16] := by decide
  rw [Cls.retested, if_neg h, Cls.update_items]
  refine List.map_congr_left fun k _ => ?_
  by_cases k15 : k.num = 15
  · simp [Item.fail, k15, d15]
  · by_cases k16 : k.num = 16
    · simp [Item.fail, k16, d16]
    · by_cases k17 : k.num = 17
      · simp [Item.fail, k17, d17]
      · simp [k15, k16, k17]

theorem Cls.retested_kept (c : Cls) :
    c.retested.items.map Item.num = c.items.map Item.num ∧ c.retested.lockout = c.lockout ∧
    c.retested.programming = c.programming := by
  unfold Cls.retested
  split
  · exact ⟨rfl, rfl, rfl⟩
  · exact ⟨Cls.update_nums Item.fail_num _ c, rfl, rfl⟩

theorem Cls.load_nums (c : Cls) : c.load.items.map Item.num = c.items.map Item.num := by
  rw [Cls.load_eq]
  exact c.resolved.retested_kept.1.trans (Cls.update_nums Item.resolve_num _ c)

theorem Cls.load_kept (c : Cls) :
    c.load.unlocked = false ∧ c.load.lockout = c.lockout ∧ c.load.programming = c.programming := by
  obtain ⟨-, lockout, programming⟩ := c.resolved.retested_kept
  rw [Cls.load_eq]
  exact ⟨rfl, lockout, programming⟩

theorem itemSpecs_distinct : (itemSpecs.map ItemSpec.num).Nodup := by decide

/-- The parts of a store in the shape of its tables. -/
theorem Cls.storeFits_parts {c : Cls} (h : c.storeFits = true) :
    c.items.map Item.num = itemSpecs.map ItemSpec.num ∧
    (∀ i ∈ c.items, ∀ spec, specOf i.num = some spec →
      i.stored.length = spec.words ∧ i.held.length = spec.words) ∧
    ∀ p, c.programming = some p → ∀ spec, specOf p.item = some spec → p.words.length = spec.words := by
  simp only [Cls.storeFits, Bool.and_eq_true, decide_eq_true_eq, List.all_eq_true, Option.all_eq_true] at h
  obtain ⟨⟨nums, words⟩, programming⟩ := h
  exact ⟨nums, words, programming⟩

/-- The load of a store in the shape of its tables is that of R179 and R185. -/
theorem Cls.loadsAs_load {c : Cls} (fits : c.storeFits = true) : c.loadsAs c.load := by
  obtain ⟨nums, words, -⟩ := c.storeFits_parts fits
  obtain ⟨unlocked, lockout, programming⟩ := c.load_kept
  have distinct : (c.load.items.map Item.num).Nodup := by
    rw [c.load_nums, nums]
    exact itemSpecs_distinct
  have loads : List.Forall₂ Item.loadsAs c.items c.resolved.items := by
    rw [c.resolved_items, List.forall₂_map_right_iff, List.forall₂_same]
    exact fun i mem => Item.loadsAs_resolve fun spec known => (words i mem spec known).1
  refine ⟨⟨c.resolved.items, loads, ?_⟩, c.load.defaulted_iff, Cls.value_defaulted,
    fun k mem own => Cls.inForce_held distinct mem own, unlocked, lockout, programming⟩
  dsimp only
  rw [← c.resolved.value_held (n := 15) rfl, ← c.resolved.value_held (n := 16) rfl,
    ← c.resolved.value_held (n := 17) rfl, ← Cls.rangeAgrees_iff, c.load_eq]
  exact ⟨fun agree => (congrArg Cls.items (Cls.retested_agree agree) :), Cls.retested_disagree⟩

/-! ### The load of the band table -/

theorem validBand_iff (sdist : Nat) (ws : List Word) :
    (bandWordsFit ws && decide (sdist + 30 ≤ wordAt ws 0)) = true ↔ validBand sdist ws := by
  unfold validBand bandWordsFit
  split
  · simp [between, wordAt, and_assoc]
  · next other =>
    refine ⟨fun h => absurd h (by simp), fun ⟨len, _⟩ => ?_⟩
    obtain ⟨a, b, c, rfl⟩ := List.length_eq_three.1 len
    exact absurd rfl (other a b c)

theorem bandOfWords_valid {sdist : Nat} {ws : List Word} (h : validBand sdist ws) :
    bandOfWords sdist ws = some (calibratedBand 0 ws) := if_pos ((validBand_iff sdist ws).2 h)

theorem bandOfWords_invalid {sdist : Nat} {ws : List Word} (h : ¬ validBand sdist ws) : bandOfWords sdist ws = none :=
  if_neg fun k => h ((validBand_iff sdist ws).1 k)

theorem loadBand_nil (b : Band) : loadBand b [] = ([{ b with id := 0 }], false) := rfl

theorem lowestWhere_singleton (p : Band → Bool) (a : Band) :
    lowestWhere p [a] = if p a then some a else none := by
  change List.find? p [a] = _
  cases h : p a <;> simp [h]

theorem loadBand_apart {a b : Band} (slot : a.id = 0) (apart : b.overlaps a = false) :
    loadBand b [a] = ([a, { b with id := 1 }], false) := by
  have free : freeSlot [a] = some 1 := by simp [freeSlot, Config.bandSlots, slot, List.range, List.range.loop]
  unfold loadBand
  rw [lowestWhere_singleton, apart]
  simp [free, putBand, slot]

theorem loadBand_overlapping {a b : Band} (overlap : b.overlaps a = true) :
    loadBand b [a] = ([a.merge b], false) := by
  unfold loadBand
  rw [lowestWhere_singleton, overlap]
  simp [mergeInto, putBand, removeBand, mergeChain, overlappingPair]

theorem calibratedBand_overlaps (n m : Nat) (a b : List Word) :
    (calibratedBand n b).overlaps (calibratedBand m a) = true ↔ ¬ (wordAt a 1 < wordAt b 0 ∨ wordAt b 1 < wordAt a 0) := by
  rw [Band.overlaps, Bool.and_eq_true, decide_eq_true_eq, decide_eq_true_eq]
  dsimp only [calibratedBand]
  omega

/-- Two calibrated bands merged: adjusted where the table's own band has changed (R62). -/
theorem calibratedBand_merge (a b : List Word) :
    let lower := min (wordAt a 0) (wordAt b 0)
    let upper := max (wordAt a 1) (wordAt b 1)
    let peak := max (wordAt a 2) (wordAt b 2)
    (calibratedBand 0 a).merge (calibratedBand 0 b) = ⟨0, lower, upper, peak, .calibrated, 0, false,
      decide (lower ≠ wordAt a 0 ∨ upper ≠ wordAt a 1 ∨ peak ≠ wordAt a 2)⟩ := by
  simp [Band.merge, calibratedBand, Origin.higher, Band.differs, Bool.or_assoc]

/-- A band item that is not valid is not loaded. -/
theorem State.loadBandItem_invalid {n : Nat} {s : State} (h : ¬ validBand s.sdist (s.cls.inForce n)) :
    s.loadBandItem n = s := by
  unfold State.loadBandItem
  rw [bandOfWords_invalid h]

/-- A valid band item that displaces no band gives the table with it loaded. -/
theorem State.loadBandItem_valid {n : Nat} {s : State} {bs : List Band} (h : validBand s.sdist (s.cls.inForce n))
    (table : loadBand (calibratedBand 0 (s.cls.inForce n)) s.rbt.bands = (bs, false)) :
    s.loadBandItem n = s.withBands bs := by
  unfold State.loadBandItem
  rw [bandOfWords_valid h]
  simp only [table]
  rfl

/-- A load into an empty table changes the table alone: no band is displaced. -/
theorem State.loadBands_empty {s : State} (empty : s.rbt.bands = []) :
    ∃ bs, s.loadBands = s.withBands bs ∧ (s.withBands bs).bandsLoaded := by
  unfold State.loadBands
  by_cases first : validBand s.sdist (s.cls.inForce 38)
  · rw [State.loadBandItem_valid first (by rw [empty, loadBand_nil])]
    by_cases second : validBand s.sdist (s.cls.inForce 39)
    · by_cases apart : wordAt (s.cls.inForce 38) 1 < wordAt (s.cls.inForce 39) 0 ∨
          wordAt (s.cls.inForce 39) 1 < wordAt (s.cls.inForce 38) 0
      · have clear := Bool.eq_false_iff.2 fun k => (calibratedBand_overlaps 0 0 _ _).1 k apart
        exact ⟨_, State.loadBandItem_valid second (loadBand_apart rfl clear), fun n => absurd first n,
          fun _ n => absurd second n, fun n => absurd first n, fun _ _ _ => rfl, fun _ _ n => absurd apart n⟩
      · have overlap := (calibratedBand_overlaps 0 0 _ _).2 apart
        exact ⟨_, State.loadBandItem_valid second (loadBand_overlapping overlap), fun n => absurd first n,
          fun _ n => absurd second n, fun n => absurd first n, fun _ _ a => absurd a apart,
          fun _ _ _ => congrArg ([·]) (calibratedBand_merge _ _)⟩
    · exact ⟨_, State.loadBandItem_invalid second, fun n => absurd first n, fun _ _ => rfl, fun n => absurd first n,
        fun _ k => absurd k second, fun _ k => absurd k second⟩
  · rw [State.loadBandItem_invalid first]
    by_cases second : validBand s.sdist (s.cls.inForce 39)
    · exact ⟨[calibratedBand 0 (s.cls.inForce 39)],
        State.loadBandItem_valid second (by rw [empty, loadBand_nil]; rfl), fun _ n => absurd second n,
        fun k => absurd k first, fun _ _ => rfl, fun k => absurd k first, fun k => absurd k first⟩
    · exact ⟨s.rbt.bands, State.loadBandItem_invalid second, fun _ _ => empty, fun k => absurd k first,
        fun _ k => absurd k second, fun k => absurd k first, fun k => absurd k first⟩

/-! ### The first ceiling -/

/-- Stage A searches from above, so its figure is the force limit of R78. -/
theorem isForceLimit_forceLimit (u kf g : Nat) : isForceLimit u kf g (forceLimit u kf g) := by
  unfold forceLimit
  refine ⟨fun zero => if_pos zero, fun positive => ?_⟩
  rw [if_neg positive]
  have passes (n : Nat) : decide (u * (n * n) * 100 ≤ kf * kf * g) = true ↔ u * n ^ 2 * 100 ≤ kf ^ 2 * g := by
    simp only [decide_eq_true_eq, pow_two]
  obtain ⟨top, zero | pass, highest⟩ := largestPassing_spec (fun n => u * (n * n) * 100 ≤ kf * kf * g) 1200
  · refine ⟨top, by rw [zero]; simp, fun m le h => highest m le ((passes m).2 h)⟩
  · exact ⟨top, (passes _).1 pass, fun m le h => highest m le ((passes m).2 h)⟩

/-- The ceiling that SPM computes is the one of stages A to D. -/
theorem State.ceilingFits_now (s : State) : s.ceilingFits s.ceilingNow :=
  s.ceilingFits_ceilingNow (isForceLimit_forceLimit _ _ _)

/-! ### The end of the last reset -/

/-- The load sets CAL_FAULT where it leaves the store DEFAULTED. -/
theorem State.loadStore_eq (s : State) :
    s.loadStore = { s with
      cls := s.cls.load
      lkp := { s.lkp with notices :=
        { s.lkp.notices with calFault := s.cls.load.defaulted || s.lkp.notices.calFault } } } := by
  unfold State.loadStore State.post NoticeSet.add
  dsimp only
  cases s.cls.load.defaulted <;> rfl

/-- The part with its blocks held, the time at 0, its timers started and the store loaded (R2, R8, R126, R127, R163, R186). -/
def State.restarted (s : State) : State :=
  (State.startTimers { s.holdBlocks with time := 0, rst := ⟨none, false⟩ }).loadStore.loadGuard

/-- The first ceiling, from the estimate update of an IDLE estimate, and the grant record that shows it (R91, R123). -/
def State.firstGrant (s : State) : State := s.takeUpdate.computeCeiling.resetGrant

theorem State.restarted_blocks (s : State) :
    s.restarted.time = 0 ∧ s.restarted.rst = ⟨none, false⟩ ∧ s.restarted.startUp = some 20000 ∧
    s.restarted.rtb = { Rtb.held with restTimer := some 3000000 } ∧ s.restarted.csm = Csm.held ∧
    s.restarted.ibe = Ibe.held ∧
    s.restarted.ric = { Ric.held with bleedTimer := some 100000, unknownTimer := some 30000000 } ∧
    s.restarted.tmo = { Tmo.held with
      strikeTimer := if s.strikePin then some 10000 else none
      lidTimer := if s.lidPin then some 10000 else none } ∧
    s.restarted.cls = s.cls.load ∧ s.restarted.rbt = Rbt.held := by
  unfold State.restarted
  rw [State.loadStore_eq]
  simp [State.loadGuard, State.startTimers, State.timerFor, State.holdBlocks, startUpTime, restTime, bleedTime, unknownTime,
    debounceTime]

theorem State.restarted_lkp (s : State) :
    s.restarted.lkp = { Lkp.held s.restarted.lkp.image with
      notices := { NoticeSet.empty with calFault := s.restarted.cls.defaulted } } := by
  unfold State.restarted
  rw [State.loadStore_eq]
  simp [State.loadGuard, State.startTimers, State.holdBlocks, Lkp.held, NoticeSet.empty]

theorem State.loadGuard_guard (s : State) : s.loadGuard.spm.guard = s.loadGuard.defaultGuard := rfl

theorem State.restarted_spm (s : State) :
    s.restarted.spm.plan = .empty ∧ s.restarted.spm.plateaus = [] ∧
    s.restarted.spm.guard = s.restarted.defaultGuard := by
  unfold State.restarted
  refine ⟨?_, ?_, State.loadGuard_guard _⟩ <;> (rw [State.loadStore_eq]; rfl)

@[simp] theorem State.firstGrant_frame (s : State) :
    s.firstGrant.time = s.time ∧ s.firstGrant.rst = s.rst ∧ s.firstGrant.startUp = s.startUp ∧
    s.firstGrant.rtb = s.rtb ∧ s.firstGrant.csm = s.csm ∧ s.firstGrant.ibe = s.ibe ∧ s.firstGrant.rbt = s.rbt ∧
    s.firstGrant.ric = s.ric ∧ s.firstGrant.tmo = s.tmo ∧ s.firstGrant.cls = s.cls := by
  and_intros <;> rfl

theorem State.firstGrant_spm (s : State) :
    s.firstGrant.spm = { s.spm with
      update := s.estimateUpdate
      ceiling := s.takeUpdate.ceilingNow
      grant := ⟨0, .brake, s.takeUpdate.ceilingNow, none, .restart⟩ } := rfl

/-- Neither the ceiling nor the grant record is an input of the ceiling. -/
theorem State.firstGrant_ceilingNow (s : State) : s.firstGrant.ceilingNow = s.takeUpdate.ceilingNow := by
  unfold State.ceilingNow State.kf State.guardFactor State.rpm State.lcross State.smax State.sdist
  rw [State.firstGrant_spm]
  simp

theorem State.firstGrant_lkp (s : State) : s.firstGrant.lkp = { s.lkp with image := s.firstGrant.spm.grant } := rfl

/-- Before the first revolution the evaluation imbalance is U_init (R50). -/
theorem State.estimateUpdate_held {s : State} (h : s.ibe = Ibe.held) : s.estimateUpdate = ⟨s.uInit, false, false⟩ := by
  simp [State.estimateUpdate, State.uEval, State.uLastOrInit, State.degraded, State.settled, h, Ibe.held]

theorem State.bandsLoaded_congr {s t : State} (cls : t.cls = s.cls) (rbt : t.rbt = s.rbt) (h : s.bandsLoaded) :
    t.bandsLoaded := by
  unfold State.bandsLoaded State.sdist at *
  rw [cls, rbt]
  exact h

/-- The end of a reset is a load into an empty band table, with the first ceiling on the table that it gives. -/
theorem State.endReset_eq (s : State) :
    ∃ bs, s.endReset = (s.restarted.withBands bs).firstGrant ∧ (s.restarted.withBands bs).bandsLoaded := by
  obtain ⟨-, -, -, -, -, -, -, -, -, rbt⟩ := s.restarted_blocks
  obtain ⟨bs, table, loaded⟩ := State.loadBands_empty (congrArg Rbt.bands rbt)
  exact ⟨bs, by rw [← table]; rfl, loaded⟩

/-- Time, timers and the blocks but for the plan, the bands and the link state (R2, R8, R126, R127, R163, R186). -/
theorem State.endReset_blocks (s : State) :
    s.endReset.time = 0 ∧ s.endReset.rst = ⟨none, false⟩ ∧ s.endReset.startUp = some 20000 ∧
    s.endReset.rtb = { Rtb.held with restTimer := some 3000000 } ∧ s.endReset.csm = Csm.held ∧
    s.endReset.ibe = Ibe.held ∧
    s.endReset.ric = { Ric.held with bleedTimer := some 100000, unknownTimer := some 30000000 } ∧
    s.endReset.tmo = { Tmo.held with
      strikeTimer := if s.strikePin then some 10000 else none
      lidTimer := if s.lidPin then some 10000 else none } ∧
    s.endReset.cls = s.cls.load := by
  obtain ⟨time, rst, startUp, rtb, csm, ibe, ric, tmo, cls, -⟩ := s.restarted_blocks
  obtain ⟨bs, eq, -⟩ := s.endReset_eq
  rw [eq]
  simp only [State.firstGrant_frame, State.withBands_frame]
  exact ⟨time, rst, startUp, rtb, csm, ibe, ric, tmo, cls⟩

/-- The band table is the one that the load gives, and no span is under way (R64, R76). -/
theorem State.endReset_bands (s : State) : s.endReset.bandsLoaded ∧ s.endReset.rbt.span = none := by
  obtain ⟨-, -, -, -, -, -, -, -, -, rbt⟩ := s.restarted_blocks
  obtain ⟨bs, eq, loaded⟩ := s.endReset_eq
  rw [eq]
  exact ⟨State.bandsLoaded_congr (by simp) (by simp) loaded, congrArg Rbt.span rbt⟩

/-- The plan is EMPTY under the default guard, with the estimate update of U_init, the first ceiling and the grant record of
Table 6-12 (R87, R91, R123). -/
theorem State.endReset_plan (s : State) :
    s.endReset.spm.plan = .empty ∧ s.endReset.spm.plateaus = [] ∧ s.endReset.spm.guard = s.endReset.defaultGuard ∧
    s.endReset.spm.update = ⟨s.endReset.uInit, false, false⟩ ∧ s.endReset.spm.ceiling = s.endReset.ceilingNow ∧
    s.endReset.spm.grant = ⟨0, .brake, s.endReset.spm.ceiling, none, .restart⟩ := by
  obtain ⟨-, -, -, -, -, ibe, -⟩ := s.restarted_blocks
  obtain ⟨plan, plateaus, guard⟩ := s.restarted_spm
  obtain ⟨bs, eq, -⟩ := s.endReset_eq
  rw [eq]
  generalize s.restarted = v at *
  have update := State.estimateUpdate_held (s := v.withBands bs) ibe
  rw [State.firstGrant_spm, State.firstGrant_ceilingNow]
  exact ⟨plan, plateaus, guard, update, rfl, rfl⟩

/-- The link state: STARTING, the ports idle, and of the notices CAL_FAULT alone, where the store is DEFAULTED (R178, R185). -/
theorem State.endReset_lkp (s : State) :
    s.endReset.lkp = { Lkp.held s.endReset.spm.grant with
      notices := { NoticeSet.empty with calFault := s.endReset.cls.defaulted } } := by
  obtain ⟨bs, eq, -⟩ := s.endReset_eq
  rw [eq, State.firstGrant_lkp]
  simp only [State.firstGrant_frame, State.withBands_frame]
  rw [s.restarted_lkp]
  rfl

theorem execResetTimerExpiry_other {s : State} {τ : Nat} (h : s.rst = ⟨some τ, true⟩) :
    exec .resetTimerExpiry s = .next { s with time := max s.time τ, rst := ⟨none, true⟩ } := by
  change execResetTimerExpiry s = _
  unfold execResetTimerExpiry
  rw [h]
  rfl

theorem execResetTimerExpiry_last {s : State} {τ : Nat} (h : s.rst = ⟨some τ, false⟩) :
    exec .resetTimerExpiry s =
      .next (State.endReset { s with time := max s.time τ, rst := ⟨none, false⟩ }) := by
  change execResetTimerExpiry s = _
  unfold execResetTimerExpiry
  simp only [h, Bool.false_eq_true, if_false]

theorem execResetNNegated_other {s : State} {τ : Nat} (h : s.rst = ⟨some τ, true⟩) (after : Nat) :
    exec (.resetNNegated after) s = .next { s with time := s.time + after, rst := ⟨some τ, false⟩ } := by
  change execResetNNegated after s = _
  unfold execResetNNegated
  simp [h, State.elapse]

theorem execResetNNegated_last {s : State} (h : s.rst = ⟨none, true⟩) (after : Nat) :
    exec (.resetNNegated after) s = .next (s.elapse after).endReset := by
  change execResetNNegated after s = _
  unfold execResetNNegated
  simp [h]

/-- Settles O6: what each of the two commands does with the last reset and with another in force, then block by block the state that
the end of a reset leaves. -/
theorem endOfResetLoadsAndStarts : Obligations.EndOfResetLoadsAndStarts := by
  intro after τ s
  refine ⟨fun h => ⟨execResetTimerExpiry_other h, execResetNNegated_other h after⟩, execResetTimerExpiry_last,
    fun h => execResetNNegated_last h after, ?_⟩
  obtain ⟨time, rst, startUp, rtb, csm, ibe, ric, tmo, cls⟩ := s.endReset_blocks
  obtain ⟨bands, span⟩ := s.endReset_bands
  obtain ⟨plan, plateaus, guard, update, ceiling, grant⟩ := s.endReset_plan
  obtain ⟨unlocked, lockout, -⟩ := s.cls.load_kept
  have store (fits : s.cls.storeFits = true) : s.cls.loadsAs s.endReset.cls := by
    rw [cls]
    exact Cls.loadsAs_load fits
  have ceilingFits : s.endReset.ceilingFits s.endReset.spm.ceiling := by
    rw [ceiling]
    exact s.endReset.ceilingFits_now
  rw [← cls] at unlocked lockout
  have lkp := s.endReset_lkp
  exact ⟨time, rst, startUp, rtb, csm, ibe, ric, tmo, cls, unlocked, lockout, plan, plateaus, guard, store, bands, span, update,
    ceilingFits, grant, congrArg Lkp.image lkp, congrArg Lkp.part lkp, congrArg Lkp.driveAtn lkp, congrArg Lkp.cycle lkp,
    congrArg Lkp.drive lkp, congrArg (·.notices.calFault) lkp, congrArg (·.notices.restart) lkp⟩

end Sys2Proof.Machine
end

section
/-! Timers that run out, and what a change of part state does to CSM, the latch, the grant and the ring. -/

namespace Sys2Proof.Machine

/-- A running timer outside a reset acts at its instant, or now if that has passed (log 1). -/
theorem onExpiry_runs {timer : Option Nat} {τ : Nat} {s : State} (running : timer = some τ) (live : s.inReset = false)
    (f : State → State) : onExpiry timer f s = .next (f { s with time := max s.time τ }) := by
  subst running
  simp [onExpiry, live]

/-! ### The sampler's part of a change of part state -/

theorem State.samplerPart_quiet (old : PartState) (s : State) :
    (s.samplerPart old .quiet).csm =
      { s.csm with quietRef := s.csm.meanSag, staticTimer := s.csm.staticTimer.map (fun _ => s.time + 1000000) } := rfl

/-- The exit from QUIET returns static sampling to the fast rate (R27, R32, log 35). -/
theorem State.samplerPart_fromQuiet {new : PartState} (leaves : new ≠ .quiet) (s : State) :
    (s.samplerPart .quiet new).csm =
      { s.csm with quietRef := none, staticTimer := s.csm.staticTimer.map (fun _ => s.time + 100000) } := by
  rw [State.samplerPart, if_neg leaves, if_pos rfl]
  rfl

/-- Static sampling starts with RUN where the basket turns slower than 30 rpm (R27). -/
theorem State.samplerPart_started {s : State} (slow : s.rpm < 30) :
    (s.samplerPart .starting .run).csm = { s.csm with staticTimer := some (s.time + 100000) } := by
  simp [State.samplerPart, slow, State.timerFor, staticTime]

theorem State.samplerPart_startedFast {s : State} (fast : 30 ≤ s.rpm) :
    (s.samplerPart .starting .run).csm = s.csm := by
  simp [State.samplerPart, Nat.not_lt.2 fast]

/-- Between the part states that sample at the fast rate CSM stays as it is. -/
theorem State.samplerPart_idle {old new : PartState} (toQuiet : new ≠ .quiet) (fromQuiet : old ≠ .quiet)
    (fromStarting : old ≠ .starting) (s : State) : (s.samplerPart old new).csm = s.csm := by
  simp [State.samplerPart, toQuiet, fromQuiet, fromStarting]

/-! ### A change of part state, block by block -/

theorem State.discardLatch_ibe (s : State) : s.discardLatch.ibe = { s.ibe with latch := .free } := by
  unfold State.discardLatch
  split
  · next latch => rw [← latch]
  all_goals simp

/-- What the neighbours take at a change of part state, before SPM evaluates the grant (Table 9-6, note 1). -/
def State.partHanded (p : PartState) (s : State) : State :=
  let t := State.samplerPart s.lkp.part p { s with lkp := { s.lkp with part := p } }
  if p = .quiet then t.discardLatch else t

theorem State.setPart_eq (p : PartState) (s : State) :
    s.setPart p =
      State.planReport (if p = .run then (s.partHanded p).unforceGrant else (s.partHanded p).refreshGrant) := rfl

/-- No block but CSM, the latch and LKP is handed anything before the evaluation. -/
theorem State.partHanded_frame (p : PartState) (s : State) :
    (s.partHanded p).ric = s.ric ∧ (s.partHanded p).spm = s.spm := by
  unfold State.partHanded
  dsimp only
  split <;> simp

theorem State.partHanded_csm (p : PartState) (s : State) :
    (s.partHanded p).csm = (s.samplerPart s.lkp.part p).csm := by
  have reads : ∀ v : Lkp, (State.samplerPart s.lkp.part p { s with lkp := v }).csm = (s.samplerPart s.lkp.part p).csm := by
    intro v
    unfold State.samplerPart
    simp only [apply_ite State.csm]
    rfl
  unfold State.partHanded
  dsimp only
  split <;> simp [reads]

theorem State.partHanded_ibe (p : PartState) (s : State) :
    (s.partHanded p).ibe = if p = .quiet then { s.ibe with latch := .free } else s.ibe := by
  unfold State.partHanded
  dsimp only
  split <;> simp [State.discardLatch_ibe]

/-- CSM takes its own part of the change and nothing else of it. -/
theorem State.setPart_csm (p : PartState) (s : State) : (s.setPart p).csm = (s.samplerPart s.lkp.part p).csm := by
  rw [State.setPart_eq, ← State.partHanded_csm]
  split <;> simp

/-- The entry into QUIET frees the latch, every other change leaves IBE (R58). -/
theorem State.setPart_ibe (p : PartState) (s : State) :
    (s.setPart p).ibe = if p = .quiet then { s.ibe with latch := .free } else s.ibe := by
  rw [State.setPart_eq, ← State.partHanded_ibe]
  split <;> simp

/-- The restart hold keeps the grant at 0 through every change of part state (Table 6-10). -/
theorem State.setPart_restartHold {s : State} (hold : s.spm.restartHold = true) (p : PartState) :
    (s.setPart p).spm.grant.speed = 0 := by
  have forced : (s.partHanded p).grantForced = true := by
    simp [State.grantForced, s.partHanded_frame p, hold]
  rw [State.setPart_eq, State.unforceGrant, if_pos forced, ite_self]
  refine State.planReport_forced ?_ (State.evaluateGrant_forced _ forced)
  rw [(State.refreshGrant_planOp _).grantForced (by simp), forced]

/-- Only the test of the freeze touches the ring at a change of part state (R143, R144). -/
theorem State.setPart_ringFollows {s u : State} (ring : u.ric = s.ric) (safe : s.ringSafe = true) (p : PartState) :
    s.ringFollows (u.setPart p) := by
  simp only [State.ringSafe, Bool.and_eq_true] at safe
  obtain ⟨⟨-, fits⟩, valve⟩ := safe
  rw [State.setPart_eq]
  exact State.planReport_follows (by split <;> simp [State.partHanded_frame, ring]) fits valve

/-- A notice is nothing to the ring. -/
theorem State.ringFollows_post {s t : State} (follows : s.ringFollows t) (n : Notice) : s.ringFollows (t.post n) :=
  follows

/-- A notice that is posted stands (R171). -/
theorem State.post_has (n : Notice) (s : State) : (s.post n).lkp.notices.has n = true := by
  simp [State.post, NoticeSet.has_add]

/-- The queue is frozen in every part state but RUN (R143). -/
theorem State.setPart_frozen {p : PartState} (notRun : p ≠ .run) (s : State) : (s.setPart p).ric.frozen = true := by
  obtain ⟨part, -, -, -, -, -, frozen, -⟩ := s.setPart_spec p
  rw [frozen]
  simp [State.freezeCondition, part, notRun]

/-! ### Start-up, the quiet countdown and the wake timer -/

theorem exec_endOfStartUp {s : State} {τ : Nat} (running : s.startUp = some τ) (live : s.inReset = false) :
    exec .endOfStartUp s =
      .next ((State.setPart .run { s with time := max s.time τ, startUp := none }).post .restart) := by
  simp only [exec, execEndOfStartUp, onExpiry_runs running live]

theorem exec_quietCountdownExpiry {s : State} {τ : Nat} (running : s.lkp.quietTimer = some τ)
    (live : s.inReset = false) :
    exec .quietCountdownExpiry s =
      .next (State.setPart .quiet { s with time := max s.time τ, lkp := { s.lkp with quietTimer := none } }) := by
  simp only [exec, execQuietCountdownExpiry, onExpiry_runs running live]

theorem exec_wakeTimerExpiry {s : State} {τ : Nat} (running : s.lkp.wakeTimer = some τ) (live : s.inReset = false) :
    exec .wakeTimerExpiry s =
      .next ((State.setPart .run { s with time := max s.time τ, lkp := { s.lkp with wakeTimer := none } }).post .wake) := by
  simp only [exec, execWakeTimerExpiry, onExpiry_runs running live]

/-- Settles O7: a change of part state from STARTING to RUN. -/
theorem startUpEndsInRun : Obligations.StartUpEndsInRun := by
  intro τ s running live starting
  refine ⟨_, exec_endOfStartUp running live, ?_⟩
  generalize hu : ({ s with time := max s.time τ, startUp := none } : State) = u
  have fromStarting : u.lkp.part = .starting := by rw [← hu, ← starting]
  obtain ⟨part, -⟩ := u.setPart_spec .run
  obtain ⟨time, -, startUp, -, -, rtb, tmo, cls, -⟩ := u.setPart_frame .run
  have csm := u.setPart_csm .run
  have ibe := u.setPart_ibe .run
  have follows (safe : s.ringSafe = true) : s.ringFollows (u.setPart .run) :=
    State.setPart_ringFollows (by rw [← hu]) safe .run
  have stopped (hold : u.spm.restartHold = true) := State.setPart_restartHold hold .run
  rw [fromStarting] at csm
  have slowCsm (slow : u.rpm < 30) := csm.trans (State.samplerPart_started slow)
  have fastCsm (fast : 30 ≤ u.rpm) := csm.trans (State.samplerPart_startedFast fast)
  rw [← time] at slowCsm
  have trip : ((u.setPart .run).post .restart).tripLine = u.tripped := by
    simp [State.tripLine, State.tripped, State.post, part]
  generalize u.setPart .run = t at *
  subst hu
  exact ⟨part, startUp, State.post_has .restart _, trip, rtb, tmo, ibe, cls, time,
    fun safe => State.ringFollows_post (follows safe) .restart, slowCsm, fastCsm, stopped⟩

/-- Settles O27: changes of part state, from any to QUIET and from WAKING to RUN. -/
theorem quietAndWakeTimers : Obligations.QuietAndWakeTimers := by
  intro τ s live
  refine ⟨fun running => ⟨_, exec_quietCountdownExpiry running live, ?_⟩,
    fun running waking => ⟨_, exec_wakeTimerExpiry running live, ?_⟩⟩
  · generalize hu : ({ s with time := max s.time τ, lkp := { s.lkp with quietTimer := none } } : State) = u
    obtain ⟨part, quietTimer, wakeTimer, -, -, -, -, stopped⟩ := u.setPart_spec .quiet
    obtain ⟨time, -, -, strikePin, lidPin, rtb, tmo, cls, -⟩ := u.setPart_frame .quiet
    have csm := (u.setPart_csm .quiet).trans (u.samplerPart_quiet _)
    have ibe := u.setPart_ibe .quiet
    have follows (safe : s.ringSafe = true) : s.ringFollows (u.setPart .quiet) :=
      State.setPart_ringFollows (by rw [← hu]) safe .quiet
    have frozen := State.setPart_frozen (p := .quiet) (by decide) u
    subst hu
    exact ⟨time, part, quietTimer, wakeTimer, csm, ibe, stopped (by decide), frozen, follows, rtb, tmo, cls,
      strikePin, lidPin⟩
  · generalize hu : ({ s with time := max s.time τ, lkp := { s.lkp with wakeTimer := none } } : State) = u
    have fromWaking : u.lkp.part = .waking := by rw [← hu, ← waking]
    obtain ⟨part, quietTimer, wakeTimer, -⟩ := u.setPart_spec .run
    obtain ⟨time, -, -, strikePin, lidPin, rtb, tmo, cls, -⟩ := u.setPart_frame .run
    have csm : (u.setPart .run).csm = u.csm := by
      rw [u.setPart_csm, fromWaking]
      exact State.samplerPart_idle (by decide) (by decide) (by decide) u
    have ibe := u.setPart_ibe .run
    have follows (safe : s.ringSafe = true) : s.ringFollows (u.setPart .run) :=
      State.setPart_ringFollows (by rw [← hu]) safe .run
    generalize u.setPart .run = t at *
    subst hu
    exact ⟨time, part, wakeTimer, State.post_has .wake _, quietTimer, csm, ibe,
      fun safe => State.ringFollows_post (follows safe) .wake, rtb, tmo, cls, strikePin, lidPin⟩

end Sys2Proof.Machine
end

section
/-! A static sample: the channel observations, the mean sag of the window and the quiet sag watch. -/

namespace Sys2Proof.Machine

/-! ### Channel observations -/

@[simp] theorem Four.get_zip {α β γ : Type} (f : α → β → γ) (v : Four α) (w : Four β) (j : Fin 4) :
    (Four.zip f v w).get j = f (v.get j) (w.get j) := by
  fin_cases j <;> rfl

/-- The number of observations in a row that Table 2-6 asks for. -/
theorem Channel.threshold_eq (c : Channel) (r : Regime) :
    c.threshold r = if r = .static then 8 else if c = .ok then 1 else 4 := by
  cases c <;> cases r <;> rfl

theorem Channel.counts_eq (c : Channel) (o : Observation) :
    c.counts o = if c = .ok then decide (o = .dead) else decide (o = .clean) := by
  cases c <;> cases o <;> rfl

theorem Channel.other_ne (c : Channel) : c.other ≠ c := by
  cases c <;> decide

/-- One observation does to a channel what Table 2-6 says (R24 to R26). -/
theorem Corner.observe_follows (r : Regime) (o : Observation) (c : Corner) :
    channelFollows r (decide (o = .dead)) (decide (o = .clean)) c (c.observe r o) := by
  unfold channelFollows
  rw [← c.channel.counts_eq o, ← c.channel.threshold_eq r]
  unfold Corner.observe
  refine ⟨fun counts enough => ?_, fun counts few => ?_, fun passes => ?_⟩
  · rw [if_pos counts, if_pos enough]
    exact ⟨c.channel.other_ne, rfl⟩
  · rw [if_pos counts, if_neg (Nat.not_le.2 few)]
    exact ⟨rfl, rfl⟩
  · rw [if_neg (by simp [passes])]
    exact ⟨rfl, rfl⟩

/-- An observation leaves the sums and counts of the revolution. -/
theorem Corner.observe_sums (r : Regime) (o : Observation) (c : Corner) :
    (c.observe r o).iSum = c.iSum ∧ (c.observe r o).qSum = c.qSum ∧ (c.observe r o).clipped = c.clipped ∧
    (c.observe r o).outOfWindow = c.outOfWindow := by
  unfold Corner.observe
  dsimp only
  generalize (if c.streak.regime = r then c.streak.length else 0) = n
  split
  · split <;> exact ⟨rfl, rfl, rfl, rfl⟩
  · exact ⟨rfl, rfl, rfl, rfl⟩

theorem codeObservation_dead (d : Code) :
    decide (codeObservation d = .dead) = decide (d.toNat < 8 ∨ 1015 < d.toNat) := by
  unfold codeObservation isOutOfWindow
  by_cases low : d.toNat < 8 <;> by_cases high : 1015 < d.toNat <;> simp [low, high]

theorem codeObservation_clean (d : Code) :
    decide (codeObservation d = .clean) = !decide (codeObservation d = .dead) := by
  unfold codeObservation
  split <;> rfl

/-! ### The mean sag -/

/-- The sum of four figures over the OK corners. -/
def Csm.okSum (c : Csm) (v : Four Int) : Int :=
  (Four.zip (fun (k : Corner) (x : Int) => if k.channel = .ok then x else 0) c.corners v).toList.sum

/-- The sags of one entry of the window, in µm (R30). -/
def entrySags (offsets : Four Nat) (e : Four Code) : Four Int :=
  Four.zip (fun (o : Nat) (d : Code) => ((o : Int) - d.toNat) * 50) offsets e

theorem Csm.okSum_zero (c : Csm) : c.okSum (Four.all 0) = 0 := by
  simp [Csm.okSum, Four.zip, Four.all, Four.toList]

theorem Csm.okSum_add (c : Csm) (v w : Four Int) :
    c.okSum (Four.zip (fun a b => a + b) v w) = c.okSum v + c.okSum w := by
  have part (k : Corner) (x y : Int) : (if k.channel = .ok then x + y else 0) =
      (if k.channel = .ok then x else 0) + if k.channel = .ok then y else 0 := by split <;> simp
  simp only [Csm.okSum, Four.zip, Four.toList, List.sum_cons, List.sum_nil, part]
  ring

theorem Csm.okSum_entrySags (c : Csm) (offsets : Four Nat) (e : Four Code) :
    c.okSum (entrySags offsets e) = ((List.finRange 4).map (fun j =>
      if (c.corners.get j).channel = .ok then ((offsets.get j : Int) - (e.get j).toNat) * 50 else 0)).sum := rfl

/-- The sums that run corner by corner are those that run entry by entry. -/
theorem Csm.okSum_sagSums (offsets : Four Nat) (c : Csm) : c.okSum (sagSums offsets c.window) = c.sagTotal offsets := by
  have run (entries : List (Four Code)) (sums : Four Int) :
      c.okSum (entries.foldl (fun acc e => Four.zip (fun a b => a + b) acc (entrySags offsets e)) sums) =
        c.okSum sums + (entries.map (fun e => c.okSum (entrySags offsets e))).sum := by
    induction entries generalizing sums with
    | nil => simp
    | cons e rest ih => rw [List.foldl_cons, ih, c.okSum_add, List.map_cons, List.sum_cons, add_assoc]
  have total := run c.window (Four.all 0)
  simp only [c.okSum_zero, zero_add, c.okSum_entrySags] at total
  exact total

theorem Csm.sagNow_eq (offsets : Four Nat) (c : Csm) :
    c.sagNow offsets = if c.window.length = 8 ∧ 3 ≤ c.okCorners
      then some (roundDiv (c.sagTotal offsets) (8 * c.okCorners)) else none := by
  rw [← c.okSum_sagSums]
  simp only [Csm.sagNow, Bool.and_eq_true, decide_eq_true_eq]
  rfl

/-- The mean sag is valid with a full window and three OK corners (R30). -/
theorem Csm.sagNow_isSome_iff (offsets : Four Nat) (c : Csm) :
    (c.sagNow offsets).isSome = true ↔ c.window.length = 8 ∧ 3 ≤ c.okCorners := by
  rw [c.sagNow_eq]
  split <;> simp [*]

theorem Csm.sagNow_isRounded {offsets : Four Nat} {c : Csm} {m : Int} (valid : c.sagNow offsets = some m) :
    isRounded (c.sagTotal offsets) (8 * c.okCorners) m := by
  rw [c.sagNow_eq] at valid
  split at valid
  · next enough =>
    obtain rfl := Option.some.inj valid
    exact isRounded_roundDiv _ _ (by omega)
  · cases valid

/-! ### The sample -/

/-- CSM with a static sample taken at an instant and the timer started again, before the quiet watch (R29 to R31). -/
def State.sampledCsm (codes : Four Code) (s : State) : Csm :=
  let observed := Four.zip (fun (d : Code) c => c.observe .static (codeObservation d)) codes s.csm.corners
  let window := pushSample codes s.csm.window
  let sag := Csm.sagNow { s.csm with corners := observed, window := window } s.restOffsets
  { s.csm with
    corners := observed, window := window, meanSag := sag, loadMass := sag.map (massOfSag s.ksag)
    staticTimer := s.timerFor s.staticInterval }

theorem State.staticSample_eq (codes : Four Code) (s : State) :
    s.staticSample codes =
      if s.lkp.part = .quiet then State.watchSag { s with csm := s.sampledCsm codes }
      else { s with csm := s.sampledCsm codes } := rfl

/-- A mean sag no more than 2000 µm from the quiet reference changes nothing, but becomes a reference that
is absent (R32). -/
theorem State.watchSag_kept {s : State}
    (near : ∀ m, s.csm.meanSag = some m → ∀ r, s.csm.quietRef = some r → |m - r| ≤ 2000) :
    s.watchSag =
      { s with csm := { s.csm with
          quietRef := if s.csm.quietRef.isSome then s.csm.quietRef else s.csm.meanSag } } := by
  have same (reference : Option Int) (unchanged : s.csm.quietRef = reference) :
      s = { s with csm := { s.csm with quietRef := reference } } := by rw [← unchanged]
  unfold State.watchSag
  split
  · next _ mean => exact same _ (by cases ref : s.csm.quietRef <;> simp [mean])
  · next m mean ref => simp [mean, ref]
  · next m r mean ref =>
    have close := near m mean r ref
    rw [Int.abs_eq_natAbs] at close
    rw [if_neg (by omega)]
    exact same _ (by simp [ref])

/-- A mean sag more than 2000 µm from the quiet reference wakes the part (R32). -/
theorem State.watchSag_wakes {s : State} {m r : Int} (mean : s.csm.meanSag = some m) (ref : s.csm.quietRef = some r)
    (far : 2000 < |m - r|) :
    s.watchSag = State.wakeSource false { s with csm := { s.csm with quietRef := none } } := by
  rw [Int.abs_eq_natAbs] at far
  unfold State.watchSag
  simp only [mean, ref]
  rw [if_pos (by omega)]

/-- A wake source that is no frame wakes a QUIET part with WAKE, and sampling returns to the fast rate (R176, R177, log 35). -/
theorem State.wakeSource_quiet {s : State} (quiet : s.lkp.part = .quiet) :
    (s.wakeSource false).lkp.part = .waking ∧ (s.wakeSource false).lkp.notices.wake = true ∧
    (s.wakeSource false).lkp.wakeTimer = some (s.time + 50000) ∧
    (s.wakeSource false).csm =
      { s.csm with quietRef := none, staticTimer := s.csm.staticTimer.map (fun _ => s.time + 100000) } ∧
    (s.wakeSource false).ibe = s.ibe := by
  generalize hu : ({ s with lkp := { s.lkp with wakeTimer := s.timerFor wakeTime } } : State) = u
  have wakes : s.wakeSource false = (u.setPart .waking).post .wake := by
    rw [← hu, State.wakeSource, quiet]
    rfl
  have fromQuiet : u.lkp.part = .quiet := by rw [← hu, ← quiet]
  obtain ⟨part, -, wakeTimer, -⟩ := u.setPart_spec .waking
  have csm := u.setPart_csm .waking
  have ibe := u.setPart_ibe .waking
  rw [fromQuiet, State.samplerPart_fromQuiet (by decide)] at csm
  rw [wakes]
  generalize u.setPart .waking = t at *
  subst hu
  exact ⟨part, State.post_has .wake _, wakeTimer, csm, ibe⟩

/-- Outside QUIET a static sample is CSM's alone. -/
theorem State.staticSample_outside {s : State} (awake : s.lkp.part ≠ .quiet) (codes : Four Code) :
    s.staticSample codes = { s with csm := s.sampledCsm codes } := by
  rw [s.staticSample_eq, if_neg awake]

theorem State.staticSample_kept {s : State} {codes : Four Code} (quiet : s.lkp.part = .quiet)
    (near : ∀ m, (s.sampledCsm codes).meanSag = some m → ∀ r, s.csm.quietRef = some r → |m - r| ≤ 2000) :
    s.staticSample codes =
      { s with csm := { s.sampledCsm codes with
          quietRef := if s.csm.quietRef.isSome then s.csm.quietRef else (s.sampledCsm codes).meanSag } } := by
  rw [s.staticSample_eq, if_pos quiet]
  exact State.watchSag_kept near

theorem State.staticSample_wakes {s : State} {codes : Four Code} {m r : Int} (quiet : s.lkp.part = .quiet)
    (mean : (s.sampledCsm codes).meanSag = some m) (ref : s.csm.quietRef = some r) (far : 2000 < |m - r|) :
    s.staticSample codes =
      State.wakeSource false { s with csm := { s.sampledCsm codes with quietRef := none } } := by
  rw [s.staticSample_eq, if_pos quiet]
  exact State.watchSag_wakes mean ref far

/-- Whatever the quiet watch makes of a static sample, of CSM it touches the reference and the timer alone,
and IBE not at all. -/
theorem State.staticSample_blocks (codes : Four Code) (s : State) :
    (∃ reference timer, (s.staticSample codes).csm =
      { s.sampledCsm codes with quietRef := reference, staticTimer := timer }) ∧
    (s.staticSample codes).ibe = s.ibe := by
  by_cases quiet : s.lkp.part = .quiet
  · by_cases near : ∀ m, (s.sampledCsm codes).meanSag = some m → ∀ r, s.csm.quietRef = some r → |m - r| ≤ 2000
    · rw [State.staticSample_kept quiet near]
      exact ⟨⟨_, _, rfl⟩, rfl⟩
    · push Not at near
      obtain ⟨m, mean, r, ref, far⟩ := near
      rw [State.staticSample_wakes quiet mean ref far]
      generalize hu : ({ s with csm := { s.sampledCsm codes with quietRef := none } } : State) = u
      obtain ⟨-, -, -, csm, ibe⟩ := State.wakeSource_quiet (s := u) (by rw [← hu, ← quiet])
      subst hu
      exact ⟨⟨_, _, csm⟩, ibe⟩
  · rw [State.staticSample_outside quiet]
    exact ⟨⟨_, _, rfl⟩, rfl⟩

theorem pushSample_eq (codes : Four Code) (w : List (Four Code)) :
    pushSample codes w = (if w.length < 8 then w else w.drop 1) ++ [codes] := by
  unfold pushSample Config.sagEntries
  by_cases full : 8 ≤ w.length
  · rw [if_pos full, if_neg (Nat.not_lt.2 full)]
  · rw [if_neg full, if_pos (Nat.not_le.1 full)]

/-- What a static code does to a corner: an observation of its channel and nothing to its sums (R29). -/
theorem Corner.observe_code (d : Code) (c : Corner) :
    let out := decide (d.toNat < 8 ∨ 1015 < d.toNat)
    let y := c.observe .static (codeObservation d)
    channelFollows .static out (!out) c y ∧ y.iSum = c.iSum ∧ y.qSum = c.qSum ∧ y.clipped = c.clipped ∧
    y.outOfWindow = c.outOfWindow := by
  have follows := c.observe_follows .static (codeObservation d)
  rw [codeObservation_clean, codeObservation_dead] at follows
  exact ⟨follows, c.observe_sums .static _⟩

/-- The timer starts again at the rate of the part state (R27). -/
theorem State.sampledCsm_staticTimer (codes : Four Code) (s : State) :
    (s.sampledCsm codes).staticTimer = some (s.time + if s.lkp.part = .quiet then 1000000 else 100000) := by
  change some (s.time + s.staticInterval) = _
  unfold State.staticInterval
  rfl

theorem State.staticSample_window (codes : Four Code) (s : State) :
    (s.staticSample codes).csm.window =
      (if s.csm.window.length < 8 then s.csm.window else s.csm.window.drop 1) ++ [codes] := by
  obtain ⟨⟨_, _, csm⟩, -⟩ := s.staticSample_blocks codes
  rw [csm]
  exact pushSample_eq codes s.csm.window

theorem State.staticSample_corner (codes : Four Code) (s : State) (j : Fin 4) :
    (s.staticSample codes).csm.corners.get j =
      (s.csm.corners.get j).observe .static (codeObservation (codes.get j)) := by
  obtain ⟨⟨_, _, csm⟩, -⟩ := s.staticSample_blocks codes
  rw [csm]
  exact Four.get_zip ..

/-- The mean sag after a sample is that of the window and the channels after it. -/
theorem State.staticSample_meanSag (codes : Four Code) (s : State) :
    (s.staticSample codes).csm.meanSag = (s.sampledCsm codes).meanSag ∧
    (s.staticSample codes).csm.meanSag = (s.staticSample codes).csm.sagNow s.restOffsets ∧
    (s.staticSample codes).csm.loadMass = (s.staticSample codes).csm.meanSag.map (massOfSag s.ksag) := by
  obtain ⟨⟨_, _, csm⟩, -⟩ := s.staticSample_blocks codes
  rw [csm]
  exact ⟨rfl, rfl, rfl⟩

/-- The quiet watch after a sample that wakes the part. -/
theorem State.staticSample_woken {s : State} {codes : Four Code} {m r : Int} (quiet : s.lkp.part = .quiet)
    (mean : (s.sampledCsm codes).meanSag = some m) (ref : s.csm.quietRef = some r) (far : 2000 < |m - r|) :
    (s.staticSample codes).lkp.part = .waking ∧ (s.staticSample codes).lkp.notices.wake = true ∧
    (s.staticSample codes).lkp.wakeTimer = some (s.time + 50000) ∧ (s.staticSample codes).csm.quietRef = none ∧
    (s.staticSample codes).csm.staticTimer = some (s.time + 100000) := by
  rw [State.staticSample_wakes quiet mean ref far]
  generalize hu : ({ s with csm := { s.sampledCsm codes with quietRef := none } } : State) = u
  obtain ⟨part, wake, wakeTimer, csm, -⟩ := State.wakeSource_quiet (s := u) (by rw [← hu, ← quiet])
  subst hu
  exact ⟨part, wake, wakeTimer, congrArg Csm.quietRef csm, congrArg Csm.staticTimer csm⟩

theorem exec_staticTimerExpiry {s : State} {τ : Nat} (running : s.csm.staticTimer = some τ) (live : s.inReset = false)
    (codes : Four Code) :
    exec (.staticTimerExpiry codes) s = .next (State.staticSample codes { s with time := max s.time τ }) := by
  simp only [exec, execStaticTimerExpiry, onExpiry_runs running live]

/-- Settles O14: CSM's own part of the sample first, then the cases of the quiet watch. -/
theorem staticSampleJoinsTheWindow : Obligations.StaticSampleJoinsTheWindow := by
  intro codes τ s running live
  refine ⟨_, exec_staticTimerExpiry running live codes, ?_⟩
  generalize hu : ({ s with time := max s.time τ } : State) = u
  obtain ⟨time, -, -, strikePin, lidPin, rtb, tmo, cls, -⟩ := u.staticSample_frame codes
  obtain ⟨⟨_, _, csm⟩, ibe⟩ := u.staticSample_blocks codes
  have conversions : (u.staticSample codes).csm.conversions = u.csm.conversions := by rw [csm]; rfl
  have corners (j : Fin 4) := Corner.observe_code (codes.get j) (u.csm.corners.get j)
  simp only [← u.staticSample_corner codes] at corners
  obtain ⟨sampled, sag, mass⟩ := u.staticSample_meanSag codes
  have valid := (u.staticSample codes).csm.sagNow_isSome_iff u.restOffsets
  have rounded (m : Int) (mean : (u.staticSample codes).csm.meanSag = some m) :=
    Csm.sagNow_isRounded (sag.symm.trans mean)
  rw [← sag] at valid
  have outside (awake : u.lkp.part ≠ .quiet) : (u.staticSample codes).csm.staticTimer = some (u.time + 100000) ∧
      (u.staticSample codes).csm.quietRef = u.csm.quietRef ∧ (u.staticSample codes).rbt = u.rbt ∧
      (u.staticSample codes).spm = u.spm ∧ (u.staticSample codes).ric = u.ric ∧ (u.staticSample codes).lkp = u.lkp := by
    rw [State.staticSample_outside awake]
    exact ⟨by simp [u.sampledCsm_staticTimer, awake], rfl, rfl, rfl, rfl, rfl⟩
  have woken (quiet : u.lkp.part = .quiet) (m : Int) (mean : (u.staticSample codes).csm.meanSag = some m) (r : Int)
      (ref : u.csm.quietRef = some r) (far : 2000 < |m - r|) :=
    State.staticSample_woken quiet (sampled.symm.trans mean) ref far
  have kept (quiet : u.lkp.part = .quiet)
      (near : ∀ m, (u.staticSample codes).csm.meanSag = some m → ∀ r, u.csm.quietRef = some r → |m - r| ≤ 2000) :
      (u.staticSample codes).csm.staticTimer = some (u.time + 1000000) ∧
      (u.staticSample codes).csm.quietRef =
        (if u.csm.quietRef.isSome then u.csm.quietRef else (u.staticSample codes).csm.meanSag) ∧
      (u.staticSample codes).rbt = u.rbt ∧ (u.staticSample codes).spm = u.spm ∧
      (u.staticSample codes).ric = u.ric ∧ (u.staticSample codes).lkp = u.lkp := by
    rw [State.staticSample_kept quiet (fun m mean => near m (sampled.trans mean))]
    exact ⟨by simp [u.sampledCsm_staticTimer, quiet], rfl, rfl, rfl, rfl, rfl⟩
  rw [time]
  have window := u.staticSample_window codes
  subst hu
  exact ⟨rfl, window, conversions, corners, ⟨valid, rounded⟩, mass, rtb, ibe, tmo, cls, strikePin, lidPin, outside, woken,
    kept⟩

end Sys2Proof.Machine
end

section
/-! Operations that touch nothing that the five invariants of image, causes, part state, estimate update and store read. -/

namespace Sys2Proof.Machine

/-! ### Operations that touch nothing the invariants read -/

/-- All that the invariants of image, causes, part state, estimate update and store read is the same in two states. -/
structure State.SameReads (s t : State) : Prop where
  rst : t.rst = s.rst
  startUp : t.startUp = s.startUp
  first : t.tmo.first = s.tmo.first
  causes : t.tmo.causes = s.tmo.causes
  part : t.lkp.part = s.lkp.part
  quietTimer : t.lkp.quietTimer = s.lkp.quietTimer
  wakeTimer : t.lkp.wakeTimer = s.lkp.wakeTimer
  image : t.lkp.image = s.lkp.image
  grant : t.spm.grant = s.spm.grant
  update : t.spm.update = s.spm.update
  guard : t.spm.guard = s.spm.guard
  est : t.ibe.est = s.ibe.est
  settle : t.ibe.settle = s.ibe.settle
  uS : t.ibe.uS = s.ibe.uS
  uLast : t.ibe.uLast = s.ibe.uLast
  cls : t.cls = s.cls

/-- What the evaluation imbalance and the marks of an update are made of (R45, R50, R51). -/
theorem State.estimateUpdate_congr {s t : State} (est : t.ibe.est = s.ibe.est) (settle : t.ibe.settle = s.ibe.settle)
    (uS : t.ibe.uS = s.ibe.uS) (uLast : t.ibe.uLast = s.ibe.uLast) (guard : t.spm.guard = s.spm.guard)
    (uInit : t.uInit = s.uInit) : t.estimateUpdate = s.estimateUpdate := by
  unfold State.estimateUpdate State.uEval State.settled State.degraded State.uLastOrInit
  rw [est, settle, uS, uLast, guard, uInit]

/-- An operation that leaves what the invariants read, but may put a new grant record with its image. -/
structure State.Calm (s t : State) : Prop where
  rst : t.rst = s.rst
  startUp : t.startUp = s.startUp
  first : t.tmo.first = s.tmo.first
  causes : t.tmo.causes = s.tmo.causes
  part : t.lkp.part = s.lkp.part
  quietTimer : t.lkp.quietTimer = s.lkp.quietTimer
  wakeTimer : t.lkp.wakeTimer = s.lkp.wakeTimer
  update : t.spm.update = s.spm.update
  estimate : t.estimateUpdate = s.estimateUpdate
  image : s.imageCurrent = true → t.imageCurrent = true
  cls : t.cls = s.cls

theorem State.Calm.refl (s : State) : s.Calm s := ⟨rfl, rfl, rfl, rfl, rfl, rfl, rfl, rfl, rfl, id, rfl⟩

theorem State.Calm.trans {s t u : State} (h : s.Calm t) (k : t.Calm u) : s.Calm u :=
  ⟨k.rst.trans h.rst, k.startUp.trans h.startUp, k.first.trans h.first, k.causes.trans h.causes, k.part.trans h.part,
    k.quietTimer.trans h.quietTimer, k.wakeTimer.trans h.wakeTimer, k.update.trans h.update, k.estimate.trans h.estimate,
    fun i => k.image (h.image i), k.cls.trans h.cls⟩

/-- The last operation of several comes first here, since it is the one that the state after them names. -/
theorem State.Calm.after {s t u : State} (k : t.Calm u) (h : s.Calm t) : s.Calm u := h.trans k

theorem State.SameReads.calm {s t : State} (h : s.SameReads t) : s.Calm t :=
  ⟨h.rst, h.startUp, h.first, h.causes, h.part, h.quietTimer, h.wakeTimer, h.update,
    State.estimateUpdate_congr h.est h.settle h.uS h.uLast h.guard (congrArg (Cls.value · 21) h.cls),
    fun i => by simpa [State.imageCurrent, h.image, h.grant] using i, h.cls⟩

/-- Time, pins, RTB, CSM, the bands and the ring are nothing to the invariants. -/
theorem State.calm_of_frame {s t : State} (h : t.rst = s.rst ∧ t.startUp = s.startUp ∧ t.ibe = s.ibe ∧ t.spm = s.spm ∧
    t.tmo = s.tmo ∧ t.lkp = s.lkp ∧ t.cls = s.cls) : s.Calm t := by
  obtain ⟨rst, startUp, ibe, spm, tmo, lkp, cls⟩ := h
  exact State.SameReads.calm (by constructor <;> simp [rst, startUp, ibe, spm, tmo, lkp, cls])

theorem State.post_calm (n : Notice) (s : State) : s.Calm (s.post n) := State.SameReads.calm (by constructor <;> rfl)

theorem State.postFor_calm (p : Port) (n : Notice) (s : State) : s.Calm (s.postFor p n) := by
  cases p
  · exact s.post_calm n
  · exact .refl s

theorem State.setPort_calm (p : Port) (v : PortState) (s : State) : s.Calm (s.setPort p v) := by
  cases p <;> exact State.SameReads.calm (by constructor <;> rfl)

/-! ### The plan and the grant -/

/-- SPM's own record may differ in all but guard, update and grant. -/
theorem State.calm_of_spm {s : State} {v : Spm} (guard : v.guard = s.spm.guard) (update : v.update = s.spm.update)
    (grant : v.grant = s.spm.grant) : s.Calm { s with spm := v } :=
  State.SameReads.calm ⟨rfl, rfl, rfl, rfl, rfl, rfl, rfl, rfl, grant, update, guard, rfl, rfl, rfl, rfl, rfl⟩

theorem State.Calm.withSpm {s t : State} {v : Spm} (h : s.Calm t) (guard : v.guard = t.spm.guard)
    (update : v.update = t.spm.update) (grant : v.grant = t.spm.grant) : s.Calm { t with spm := v } :=
  (State.calm_of_spm guard update grant).after h

theorem State.updateActive_calm (f : Plateau → Plateau) (s : State) : s.Calm (s.updateActive f) :=
  State.calm_of_spm rfl rfl rfl

theorem State.computeCeiling_calm (s : State) : s.Calm s.computeCeiling := State.calm_of_spm rfl rfl rfl

/-- A record that is put is shown in the image (R122, R170). -/
theorem State.putGrant_calm (g : GrantRecord) (s : State) : s.Calm (s.putGrant g) := by
  unfold State.putGrant
  split
  · exact .refl s
  · exact ⟨rfl, rfl, rfl, rfl, rfl, rfl, rfl, rfl, rfl, fun _ => by simp [State.imageCurrent], rfl⟩

theorem State.speedChanged_calm (n : Nat) (s : State) : s.Calm (s.speedChanged n) := by
  unfold State.speedChanged
  split
  · exact .refl s
  · exact State.calm_of_spm rfl rfl rfl

theorem State.arriveAtZero_calm (s : State) : s.Calm s.arriveAtZero := by
  unfold State.arriveAtZero
  split
  · exact s.updateActive_calm _
  · exact .refl s

theorem State.syncDwell_calm (s : State) : s.Calm s.syncDwell := State.calm_of_spm rfl rfl rfl

theorem State.evaluateGrant_calm (n : Nat) (s : State) : s.Calm (s.evaluateGrant n) :=
  (State.syncDwell_calm _).after
    ((State.arriveAtZero_calm _).after ((State.speedChanged_calm _ _).after (s.putGrant_calm _)))

theorem State.refreshGrant_calm (s : State) : s.Calm s.refreshGrant := s.evaluateGrant_calm _

theorem State.pausePlan_calm (r : PauseReason) (s : State) : s.Calm (s.pausePlan r) :=
  (State.post_calm _ _).after (State.calm_of_spm rfl rfl rfl)

theorem State.rebalance_calm (s : State) : s.Calm s.rebalance :=
  (State.evaluateGrant_calm _ _).after ((State.pausePlan_calm _ _).after (s.post_calm _))

theorem State.derive_calm (k : DerivationKind) (s : State) : s.Calm (s.derive k) := by
  unfold State.derive
  split
  · next p _ _ =>
    have flagged := s.updateActive_calm (Plateau.flagged (s.derivation p))
    dsimp only
    split
    · exact (State.rebalance_calm _).after flagged
    · cases k <;> exact (State.evaluateGrant_calm _ _).after (flagged.withSpm rfl rfl rfl)
  · exact s.refreshGrant_calm

theorem State.ceilingAndGrant_calm (s : State) : s.Calm s.ceilingAndGrant :=
  (State.derive_calm _ _).after s.computeCeiling_calm

theorem State.unforceGrant_calm (s : State) : s.Calm s.unforceGrant := by
  unfold State.unforceGrant
  split
  · exact s.refreshGrant_calm
  · exact s.derive_calm _

theorem State.activateNext_calm (s : State) : s.Calm s.activateNext := by
  unfold State.activateNext
  split
  · exact (State.refreshGrant_calm _).after ((State.post_calm _ _).after (State.calm_of_spm rfl rfl rfl))
  · exact (State.derive_calm _ _).after (State.calm_of_spm rfl rfl rfl)

theorem State.endActive_calm (final : PlateauState) (s : State) : s.Calm (s.endActive final) :=
  (State.activateNext_calm _).after ((State.post_calm _ _).after (s.updateActive_calm _))

theorem State.testArrival_calm (c : Completion) (s : State) : s.Calm (s.testArrival c) := by
  unfold State.testArrival
  dsimp only
  split_ifs
  · exact State.calm_of_spm rfl rfl rfl
  · exact State.calm_of_spm rfl rfl rfl
  · exact State.calm_of_spm rfl rfl rfl
  · exact .refl s

theorem State.testWindow_calm (s : State) : s.Calm s.testWindow := State.calm_of_spm rfl rfl rfl

theorem State.planBecomes_calm (p : PlanState) (s : State) : s.Calm (s.planBecomes p) := by
  unfold State.planBecomes
  split
  · exact .refl s
  · exact (State.post_calm _ _).after (State.calm_of_spm rfl rfl rfl)

/-! ### Bands, ring and latch -/

theorem State.withBands_calm (bs : List Band) (s : State) : s.Calm (s.withBands bs) := State.calm_of_frame (by simp)

theorem State.loadBandItem_calm (n : Nat) (s : State) : s.Calm (s.loadBandItem n) := by
  unfold State.loadBandItem
  split
  · exact .refl s
  · dsimp only
    split
    · exact (State.post_calm _ _).after (s.withBands_calm _)
    · exact s.withBands_calm _

theorem State.reloadBands_calm (s : State) : s.Calm s.reloadBands :=
  (State.loadBandItem_calm 39 _).after ((State.loadBandItem_calm 38 _).after (s.withBands_calm _))

theorem State.closeSpan_calm (s : State) : s.Calm s.closeSpan := by
  unfold State.closeSpan
  split
  · exact .refl s
  · have closed : s.Calm { s with rbt := { s.rbt with span := none } } := State.calm_of_frame (by simp)
    dsimp only
    split
    · exact closed
    · split
      · exact (State.post_calm _ _).after closed
      all_goals
        exact (State.ceilingAndGrant_calm _).after ((State.post_calm _ _).after ((State.withBands_calm _ _).after closed))

theorem State.planReport_calm (s : State) : s.Calm s.planReport := by
  unfold State.planReport
  have refreezes (u : State) : u.Calm u.refreeze := State.calm_of_frame (by simp)
  split
  · exact refreezes s
  · exact (refreezes _).after s.closeSpan_calm

theorem State.learn_calm (c : Completion) (s : State) : s.Calm (s.learn c) := by
  unfold State.learn
  split
  · exact s.closeSpan_calm
  · split
    · exact .refl s
    · dsimp only
      split
      · exact State.calm_of_frame (by simp)
      · exact s.closeSpan_calm

theorem State.changeBands_calm (bs : List Band) (s : State) : s.Calm (s.changeBands bs) := by
  unfold State.changeBands
  split
  · exact .refl s
  · exact (State.planReport_calm _).after ((State.ceilingAndGrant_calm _).after (s.withBands_calm bs))

/-- IBE's own record may differ in all but the estimate that an update is made of. -/
theorem State.calm_of_ibe {s : State} {b : Ibe} (est : b.est = s.ibe.est) (settle : b.settle = s.ibe.settle)
    (uS : b.uS = s.ibe.uS) (uLast : b.uLast = s.ibe.uLast) : s.Calm { s with ibe := b } :=
  State.SameReads.calm ⟨rfl, rfl, rfl, rfl, rfl, rfl, rfl, rfl, rfl, rfl, rfl, est, settle, uS, uLast, rfl⟩

theorem State.latchReady_calm (k : DelayedKey) (p : Port) (r : SnapshotResult) (s : State) :
    s.Calm (s.latchReady k p r) :=
  (State.postFor_calm _ _ _).after (State.calm_of_ibe rfl rfl rfl rfl)

theorem State.testLatch_calm (s : State) : s.Calm s.testLatch := by
  unfold State.testLatch
  split
  · split
    · exact s.latchReady_calm _ _ _
    · exact .refl s
  · exact .refl s
  · exact .refl s

theorem State.discardLatch_calm (s : State) : s.Calm s.discardLatch := by
  have frees (p : Port) : s.Calm (State.postFor p .lookupDiscarded { s with ibe := { s.ibe with latch := .free } }) :=
    (State.postFor_calm _ _ _).after (State.calm_of_ibe rfl rfl rfl rfl)
  unfold State.discardLatch
  split
  · exact .refl s
  · exact frees _
  · exact frees _

theorem State.ordersTaken_calm (s : State) : s.Calm s.ordersTaken :=
  (State.testLatch_calm _).after (State.calm_of_ibe rfl rfl rfl rfl)

theorem State.autoPost_calm (s : State) : s.Calm s.autoPost := by
  unfold State.autoPost
  split
  · dsimp only
    split
    · exact s.post_calm _
    · split
      · exact (State.ordersTaken_calm _).after (State.calm_of_frame (by simp))
      · exact State.calm_of_frame (by simp)
  · exact .refl s

theorem State.samplerPart_calm (a b : PartState) (s : State) : s.Calm (s.samplerPart a b) :=
  State.calm_of_frame (by simp)

theorem State.ringCompletion_calm (c : Completion) (s : State) : s.Calm (s.ringCompletion c) :=
  (State.autoPost_calm _).after (State.calm_of_frame (by simp))

theorem State.ringStandstill_calm (s : State) : s.Calm s.ringStandstill :=
  (State.autoPost_calm _).after (State.calm_of_frame (by simp))

end Sys2Proof.Machine
end

section
/-! The invariants over part state, trips and estimate, and at a completion and a standstill. -/

namespace Sys2Proof.Machine

/-! ### What a step keeps -/

/-- Image, causes, part state and store are kept, whatever becomes of the estimate. -/
structure State.KeepsShape (s t : State) : Prop where
  image : s.imageCurrent = true → t.imageCurrent = true
  causes : s.causesConsistent = true → t.causesConsistent = true
  part : s.partConsistent = true → t.partConsistent = true
  store : s.cls.storeFits = true → t.cls.storeFits = true

/-- Each of the five invariants that holds before holds after. -/
structure State.Keeps (s t : State) : Prop extends s.KeepsShape t where
  update : s.updateCurrent = true → t.updateCurrent = true

theorem State.KeepsShape.trans {s t u : State} (h : s.KeepsShape t) (k : t.KeepsShape u) : s.KeepsShape u :=
  ⟨fun i => k.image (h.image i), fun i => k.causes (h.causes i), fun i => k.part (h.part i), fun i => k.store (h.store i)⟩

theorem State.Keeps.trans {s t u : State} (h : s.Keeps t) (k : t.Keeps u) : s.Keeps u :=
  ⟨h.toKeepsShape.trans k.toKeepsShape, fun i => k.update (h.update i)⟩

theorem State.Keeps.after {s t u : State} (k : t.Keeps u) (h : s.Keeps t) : s.Keeps u := h.trans k

theorem State.KeepsShape.current {s t : State} (h : s.KeepsShape t) (c : t.updateCurrent = true) : s.Keeps t :=
  ⟨h, fun _ => c⟩

theorem State.Calm.inReset {s t : State} (h : s.Calm t) : t.inReset = s.inReset := by
  simp only [State.inReset, h.rst]

theorem State.Calm.keeps {s t : State} (h : s.Calm t) : s.Keeps t where
  image := h.image
  causes i := by simpa only [State.causesConsistent, h.first, h.causes] using i
  part i := by
    simpa only [State.partConsistent, h.inReset, h.part, h.startUp, h.quietTimer, h.wakeTimer] using i
  store i := by simpa only [h.cls] using i
  update i := by simpa only [State.updateCurrent, h.inReset, h.update, h.estimate] using i

theorem State.Keeps.refl (s : State) : s.Keeps s := (State.Calm.refl s).keeps

/-! ### The part state -/

theorem State.partConsistent_iff (s : State) : s.partConsistent = true ↔
    (s.inReset = true → s.lkp.part = .starting) ∧
    (s.startUp.isSome = true ↔ s.lkp.part = .starting ∧ s.inReset = false) ∧
    (s.lkp.quietTimer.isSome = true ↔ s.lkp.part = .quietPending) ∧
    (s.lkp.wakeTimer.isSome = true ↔ s.lkp.part = .waking) := by
  have agree (b c : Bool) : decide (b = c) = true ↔ (b = true ↔ c = true) := by rw [decide_eq_true_iff, Bool.eq_iff_iff]
  simp only [State.partConsistent, agree, Bool.and_eq_true, Bool.or_eq_true, decide_eq_true_iff, Bool.not_eq_true',
    and_assoc, ← Bool.not_eq_true, imp_iff_not_or]

/-- The neighbours take a change of part state without a change of anything else that the invariants read. -/
theorem State.setPart_calm (p : PartState) (s : State) :
    State.Calm { s with lkp := { s.lkp with part := p } } (s.setPart p) := by
  have handed : State.Calm { s with lkp := { s.lkp with part := p } } (s.partHanded p) := by
    unfold State.partHanded
    dsimp only
    split
    · exact (State.discardLatch_calm _).after (State.samplerPart_calm _ _ _)
    · exact State.samplerPart_calm _ _ _
  rw [State.setPart_eq]
  split
  · exact (State.planReport_calm _).after ((State.unforceGrant_calm _).after handed)
  · exact (State.planReport_calm _).after ((State.refreshGrant_calm _).after handed)

/-- A part state and its timers may be put that agree with each other and with the resets in force. -/
theorem State.setPart_keeps {s : State} {startUp quietTimer wakeTimer : Option Nat} {p : PartState}
    (fits : s.partConsistent = true →
      (s.inReset = true → p = .starting) ∧ (startUp.isSome = true ↔ p = .starting ∧ s.inReset = false) ∧
      (quietTimer.isSome = true ↔ p = .quietPending) ∧ (wakeTimer.isSome = true ↔ p = .waking)) :
    s.Keeps (State.setPart p
      { s with startUp := startUp, lkp := { s.lkp with quietTimer := quietTimer, wakeTimer := wakeTimer } }) := by
  refine (State.setPart_calm _ _).keeps.after ?_
  exact ⟨⟨id, id, fun i => (State.partConsistent_iff _).2 (fits i), id⟩, id⟩

theorem State.cancelQuiet_keeps {s : State} (pending : s.lkp.part = .quietPending) : s.Keeps s.cancelQuiet := by
  refine State.setPart_keeps (startUp := s.startUp) (quietTimer := none) (wakeTimer := s.lkp.wakeTimer) fun fits => ?_
  obtain ⟨reset, startUp, -, wake⟩ := s.partConsistent_iff.1 fits
  simp_all

theorem State.wakeSource_keeps (isFrame : Bool) (s : State) : s.Keeps (s.wakeSource isFrame) := by
  have posts (t : State) : t.Keeps (if isFrame then t else t.post .wake) := by
    split
    · exact .refl t
    · exact (t.post_calm _).keeps
  unfold State.wakeSource
  dsimp only
  split
  · next quiet =>
    refine (posts _).after (State.setPart_keeps (startUp := s.startUp) (quietTimer := s.lkp.quietTimer)
      (wakeTimer := s.timerFor wakeTime) fun fits => ?_)
    obtain ⟨reset, startUp, pending, -⟩ := s.partConsistent_iff.1 fits
    simp_all [State.timerFor]
  · exact posts s
  · exact .refl s
  · exact .refl s
  · exact .refl s

theorem State.turningReport_keeps (s : State) : s.Keeps s.turningReport := by
  unfold State.turningReport
  split
  · next pending => exact State.cancelQuiet_keeps pending
  · exact s.wakeSource_keeps _

/-- QUIET is taken in RUN alone (R167, R174). -/
theorem State.quietTaken_keeps {s : State} (run : s.lkp.part = .run) (n : Nat) : s.Keeps (s.quietTaken n) := by
  refine State.setPart_keeps (startUp := s.startUp) (quietTimer := s.timerFor (n * quietUnit))
    (wakeTimer := s.lkp.wakeTimer) fun fits => ?_
  obtain ⟨reset, startUp, -, wake⟩ := s.partConsistent_iff.1 fits
  simp_all [State.timerFor]

/-! ### Trips and the lid -/

/-- TMO's own record may differ in all but the latch and its causes. -/
theorem State.calm_of_tmo {s : State} {v : Tmo} (first : v.first = s.tmo.first) (causes : v.causes = s.tmo.causes) :
    s.Calm { s with tmo := v } :=
  State.SameReads.calm ⟨rfl, rfl, first, causes, rfl, rfl, rfl, rfl, rfl, rfl, rfl, rfl, rfl, rfl, rfl, rfl⟩

theorem State.takePause_calm (r : PauseReason) (s : State) : s.Calm (s.takePause r) := by
  unfold State.takePause
  split
  · exact .refl s
  · exact s.pausePlan_calm r

theorem State.tripPlan_calm (s : State) : s.Calm s.tripPlan := by
  unfold State.tripPlan
  split
  · exact s.takePause_calm _
  · exact .refl s

theorem State.lidPlan_calm (s : State) : s.Calm s.lidPlan := by
  unfold State.lidPlan
  split
  · exact s.takePause_calm _
  · exact s.takePause_calm _
  · exact .refl s

theorem State.handTrip_keeps (s : State) : s.Keeps s.handTrip := by
  have reported := ((State.planReport_calm _).after ((State.refreshGrant_calm _).after s.tripPlan_calm)).keeps
  unfold State.handTrip
  dsimp only
  split
  · next pending => exact (State.cancelQuiet_keeps pending).after reported
  · exact reported

theorem CauseSet.has_add (c d : Cause) (v : CauseSet) : (v.add c).has d = (decide (d = c) || v.has d) := by
  cases c <;> cases d <;> simp [CauseSet.add, CauseSet.has]

/-- A latch and its causes may be put that agree with each other (Table 8-1, note 1). -/
theorem State.keeps_of_latch {s : State} {first : Option Cause} {causes : CauseSet}
    (fits : s.causesConsistent = true →
      State.causesConsistent { s with tmo := { s.tmo with first := first, causes := causes } } = true) :
    s.Keeps { s with tmo := { s.tmo with first := first, causes := causes } } :=
  ⟨⟨id, fits, id, id⟩, id⟩

theorem State.findCause_keeps (c : Cause) (s : State) : s.Keeps (s.findCause c) := by
  unfold State.findCause
  split
  · refine (State.handTrip_keeps _).after ((State.post_calm _ _).keeps.after (State.keeps_of_latch fun _ => ?_))
    simp [State.causesConsistent, CauseSet.has_add]
  · next d first =>
    split
    · exact .refl s
    · refine (State.post_calm _ _).keeps.after
        (State.keeps_of_latch (first := s.tmo.first) (causes := s.tmo.causes.add c) fun fits => ?_)
      simp only [State.causesConsistent, first, CauseSet.has_add] at fits ⊢
      simp [fits]

theorem State.unlockLid_calm (s : State) : s.Calm s.unlockLid :=
  (State.planReport_calm _).after ((State.refreshGrant_calm _).after ((State.lidPlan_calm _).after
    ((State.post_calm _ _).after (State.calm_of_tmo rfl rfl))))

theorem State.lockLid_calm (s : State) : s.Calm s.lockLid :=
  (State.planReport_calm _).after ((State.unforceGrant_calm _).after (State.calm_of_tmo rfl rfl))

theorem State.clearTrip_keeps (s : State) : s.Keeps s.clearTrip := by
  refine ((State.planReport_calm _).after (State.unforceGrant_calm _)).keeps.after (State.keeps_of_latch fun _ => ?_)
  simp [State.causesConsistent]

theorem State.strikeSettles_keeps (s : State) : s.Keeps s.strikeSettles := by
  have settles : s.Calm { s with tmo := { s.tmo with strike := s.strikePin, strikeTimer := none } } :=
    State.calm_of_tmo rfl rfl
  unfold State.strikeSettles
  dsimp only
  split
  · exact (State.wakeSource_keeps _ _).after ((State.findCause_keeps _ _).after settles.keeps)
  · exact settles.keeps

theorem State.lidSettles_calm (s : State) : s.Calm s.lidSettles := by
  have settles : s.Calm { s with tmo := { s.tmo with lidTimer := none } } := State.calm_of_tmo rfl rfl
  unfold State.lidSettles
  dsimp only
  split
  · exact (State.lockLid_calm _).after settles
  · exact (State.unlockLid_calm _).after settles

/-! ### The estimate and its update -/

/-- What SPM takes is current, whatever it held before (R51, R77). -/
theorem State.takeUpdate_updateCurrent (s : State) : s.takeUpdate.updateCurrent = true := by
  have same : s.takeUpdate.estimateUpdate = s.estimateUpdate := State.estimateUpdate_congr rfl rfl rfl rfl rfl rfl
  simp [State.updateCurrent, same]

theorem State.takeUpdate_shape (s : State) : s.KeepsShape s.takeUpdate := ⟨id, id, id, id⟩

theorem State.giveUpdate_updateCurrent (s : State) : s.giveUpdate.updateCurrent = true :=
  State.takeUpdate_updateCurrent _

theorem State.giveUpdate_shape (s : State) : s.KeepsShape s.giveUpdate :=
  ((State.autoPost_calm _).after s.testLatch_calm).keeps.toKeepsShape.trans (State.takeUpdate_shape _)

/-- An update that is handed is current after the derivation and the report that follow it (R85, R109). -/
theorem State.reported_keeps {s t : State} (h : s.Keeps t) : s.Keeps t.ceilingAndGrant.planReport :=
  ((State.planReport_calm _).after (State.ceilingAndGrant_calm _)).keeps.after h

theorem State.handUpdate_keeps {s t : State} (h : s.KeepsShape t) : s.Keeps t.handUpdate :=
  State.reported_keeps ((h.trans t.giveUpdate_shape).current t.giveUpdate_updateCurrent)

/-- An estimate that is not SETTLED: at least one agreement is owed at every guard level (R45). -/
theorem State.settled_zero {s : State} (h : s.ibe.settle = 0) : s.settled = false := by
  unfold State.settled
  rw [h]
  cases s.spm.guard <;> simp [GuardLevel.threshold]

/-- Whether the estimate is SETTLED is all that the settle count and the guard level are to an update. -/
theorem State.estimateUpdate_settled {s t : State} (settled : t.settled = s.settled) (est : t.ibe.est = s.ibe.est)
    (uS : t.ibe.uS = s.ibe.uS) (uLast : t.ibe.uLast = s.ibe.uLast) (uInit : t.uInit = s.uInit) :
    t.estimateUpdate = s.estimateUpdate := by
  unfold State.estimateUpdate State.uEval State.degraded State.uLastOrInit
  rw [settled, est, uS, uLast, uInit]

theorem State.updateCurrent_congr {s t : State} (rst : t.rst = s.rst) (update : t.spm.update = s.spm.update)
    (estimate : t.estimateUpdate = s.estimateUpdate) (h : s.updateCurrent = true) : t.updateCurrent = true := by
  simpa only [State.updateCurrent, State.inReset, rst, update, estimate] using h

theorem State.orderServing_keeps (s : State) : s.Keeps s.orderServing := by
  have shape : s.KeepsShape { s with ibe := { s.ibe with injectionMark := true, settle := 0 } } := ⟨id, id, id, id⟩
  unfold State.orderServing
  dsimp only
  split
  · exact State.handUpdate_keeps shape
  · next unsettled =>
    refine ⟨shape, State.updateCurrent_congr rfl rfl (State.estimateUpdate_settled ?_ rfl rfl rfl rfl)⟩
    rw [State.settled_zero rfl]
    exact (Bool.eq_false_iff.2 unsettled).symm

theorem State.changeGuard_keeps (g : GuardLevel) (s : State) : s.Keeps (s.changeGuard g) := by
  have shape : s.KeepsShape { s with spm := { s.spm with guard := g } } := ⟨id, id, id, id⟩
  unfold State.changeGuard
  split
  · exact .refl s
  · dsimp only
    split
    · next same =>
      exact State.reported_keeps
        ⟨shape, State.updateCurrent_congr rfl rfl (State.estimateUpdate_settled same rfl rfl rfl rfl)⟩
    · exact State.handUpdate_keeps shape

theorem State.estimate_shape (c : Completion) (s : State) : s.KeepsShape (s.estimate c) := by
  have tested {t : State} (h : s.KeepsShape t) : s.KeepsShape t.testLatch := h.trans t.testLatch_calm.keeps.toKeepsShape
  have ibe (b : Ibe) : s.KeepsShape { s with ibe := b } := ⟨id, id, id, id⟩
  have counted (t : State) : t.KeepsShape t.recordULast := by
    unfold State.recordULast
    split <;> exact ⟨id, id, id, id⟩
  unfold State.estimate
  split_ifs
  · exact tested (ibe _)
  · exact tested (ibe s.ibe)
  · exact tested (((ibe _).trans (counted (s.validRevolution c))).trans ⟨id, id, id, id⟩)
  · exact tested (ibe _)

/-! ### The blocks at a completion and at a standstill -/

/-- Of blocks that take an event one after another and all keep the invariants, one that makes the update current does so for the
whole event. -/
theorem foldl_keeps {α : Type} {take : State → α → State} {s u : State} (shape : s.KeepsShape u)
    (keeps : ∀ (v : State) (k : α), v.Keeps (take v k)) {spm : α} (current : ∀ v, (take v spm).updateCurrent = true)
    {ks : List α} (mem : spm ∈ ks) : s.Keeps (ks.foldl take u) := by
  have run (ls : List α) (v : State) : v.Keeps (ls.foldl take v) := by
    induction ls generalizing v with
    | nil => exact .refl v
    | cons l ls ih => exact (ih _).after (keeps v l)
  obtain ⟨front, back, rfl⟩ := List.append_of_mem mem
  rw [List.foldl_append, List.foldl_cons]
  have reached := run front u
  generalize front.foldl take u = v at *
  have taken := (shape.trans (reached.trans (keeps v spm)).toKeepsShape).current (current v)
  exact (run back _).after taken

theorem spm_mem_takersInOrder (order : List Taker) : Taker.spm ∈ takersInOrder order := by
  unfold takersInOrder
  by_cases named : Taker.spm ∈ order <;> simp [named, allTakers]

theorem State.testOverspeed_keeps (c : Completion) (s : State) : s.Keeps (s.testOverspeed c) := by
  have counts (n : Nat) : s.Calm { s with tmo := { s.tmo with overspeed := n } } := State.calm_of_tmo rfl rfl
  unfold State.testOverspeed
  split
  · dsimp only
    split
    · exact (State.findCause_keeps _ _).after (counts _).keeps
    · exact (counts _).keeps
  · exact (counts 0).keeps

/-- SPM's work on a completion after it has taken the update. -/
theorem State.planCompletion_calm (c : Completion) (s : State) : s.takeUpdate.Calm (s.planCompletion c) :=
  (State.planReport_calm _).after ((State.refreshGrant_calm _).after ((State.testWindow_calm _).after
    ((State.testArrival_calm _ _).after (State.ceilingAndGrant_calm _))))

theorem State.planCompletion_updateCurrent (c : Completion) (s : State) :
    (s.planCompletion c).updateCurrent = true :=
  (s.planCompletion_calm c).keeps.update s.takeUpdate_updateCurrent

theorem State.takeCompletion_keeps (c : Completion) (s : State) (k : Taker) : s.Keeps (s.takeCompletion c k) := by
  cases k with
  | rbt => exact (s.learn_calm c).keeps
  | spm =>
    exact (s.takeUpdate_shape.trans (s.planCompletion_calm c).keeps.toKeepsShape).current
      (s.planCompletion_updateCurrent c)
  | ric => exact (s.ringCompletion_calm c).keeps
  | orbit =>
    change s.Keeps (s.testOrbit c)
    unfold State.testOrbit
    split
    · exact s.findCause_keeps _
    · exact .refl s
  | sensors =>
    change s.Keeps (s.testSensors c)
    unfold State.testSensors
    split
    · exact s.findCause_keeps _
    · exact .refl s
  | overspeed => exact s.testOverspeed_keeps c

theorem State.issueCompletion_keeps (p : Nat) (order : List Taker) (s : State) : s.Keeps (s.issueCompletion p order) := by
  unfold State.issueCompletion
  dsimp only
  have sampled : s.Calm (s.observeRevolution.applyStatic.clearSums) := State.calm_of_frame (by simp)
  exact foldl_keeps (sampled.keeps.toKeepsShape.trans (State.estimate_shape _ _)) (State.takeCompletion_keeps _)
    (spm := .spm) (State.planCompletion_updateCurrent _) (spm_mem_takersInOrder order)

theorem State.indexEdge_keeps (rising : Bool) (order : List Taker) (s : State) : s.Keeps (s.indexEdge rising order) := by
  unfold State.indexEdge
  split
  · split
    · have opened : s.Calm s.firstEdge := State.calm_of_frame (by simp)
      exact ((State.refreshGrant_calm _).after opened).keeps
    · next last _ =>
      have closed : s.Keeps (s.closeRevolution (sub24 s.capture last)) := (State.calm_of_frame (by simp)).keeps
      unfold State.closingEdge
      dsimp only
      split
      · exact (State.issueCompletion_keeps _ _ _).after ((State.turningReport_keeps _).after closed)
      · exact (State.issueCompletion_keeps _ _ _).after closed
  · exact .refl s

theorem State.planStandstill_updateCurrent (s : State) : s.planStandstill.updateCurrent = true ∧
    s.KeepsShape s.planStandstill := by
  generalize hu : State.takeUpdate { s with spm := { s.spm with restartHold := false } } = u
  have current : u.updateCurrent = true := by rw [← hu]; exact State.takeUpdate_updateCurrent _
  have shape : s.KeepsShape u := by rw [← hu]; exact ⟨id, id, id, id⟩
  have derives : u.Calm (if s.spm.restartHold then u.computeCeiling.unforceGrant else u.ceilingAndGrant) := by
    split
    · exact (State.unforceGrant_calm _).after u.computeCeiling_calm
    · exact u.ceilingAndGrant_calm
  have taken : u.Calm s.planStandstill := by
    unfold State.planStandstill
    simp only [hu]
    exact (State.planReport_calm _).after ((State.refreshGrant_calm _).after ((State.testWindow_calm _).after derives))
  exact ⟨taken.keeps.update current, shape.trans taken.keeps.toKeepsShape⟩

theorem State.takeStandstill_keeps (s : State) (k : Taker) : s.Keeps (s.takeStandstill k) := by
  cases k with
  | rbt => exact s.closeSpan_calm.keeps
  | spm => exact s.planStandstill_updateCurrent.2.current s.planStandstill_updateCurrent.1
  | ric => exact s.ringStandstill_calm.keeps
  | orbit => exact .refl s
  | sensors => exact .refl s
  | overspeed => exact State.Calm.keeps (State.calm_of_tmo rfl rfl)

theorem State.standstill_keeps (order : List Taker) (s : State) : s.Keeps (s.standstill order) := by
  have rests : s.Calm s.endRun.samplerStandstill := State.calm_of_frame (by simp)
  have idles (t : State) : t.KeepsShape t.idleEstimate.testLatch :=
    State.KeepsShape.trans (t := t.idleEstimate) ⟨id, id, id, id⟩ (State.testLatch_calm _).keeps.toKeepsShape
  unfold State.standstill
  exact foldl_keeps (rests.keeps.toKeepsShape.trans (idles _)) State.takeStandstill_keeps (spm := .spm)
    (fun v => v.planStandstill_updateCurrent.1) (spm_mem_takersInOrder order)

end Sys2Proof.Machine
end

section
/-! The invariants over writes of the store, its programming, and the resets. -/

namespace Sys2Proof.Machine

/-! ### The store -/

/-- An item holds as many words, stored and in force, as its table gives it. -/
def Item.hasShape (i : Item) : Prop :=
  ∀ spec, specOf i.num = some spec → i.stored.length = spec.words ∧ i.held.length = spec.words

/-- The words being programmed, if any are, are as many as their item's table gives it. -/
def programmingFits (programming : Option Programming) : Prop :=
  ∀ p, programming = some p → ∀ spec, specOf p.item = some spec → p.words.length = spec.words

theorem Cls.storeFits_iff (c : Cls) : c.storeFits = true ↔
    c.items.map Item.num = itemSpecs.map ItemSpec.num ∧ (∀ i ∈ c.items, i.hasShape) ∧ programmingFits c.programming := by
  simp only [Cls.storeFits, Item.hasShape, programmingFits, Bool.and_eq_true, decide_eq_true_eq, List.all_eq_true,
    Option.all_eq_true, and_assoc]

/-- Items changed one by one keep the shape of the store where each keeps its own. -/
theorem Cls.update_storeFits {c : Cls} {p : Nat → Bool} {f : Item → Item} (num : ∀ i, (f i).num = i.num)
    (shape : ∀ i, p i.num = true → i.hasShape → (f i).hasShape) (fits : c.storeFits = true) :
    (c.update p f).storeFits = true := by
  rw [Cls.storeFits_iff] at *
  obtain ⟨nums, items, programming⟩ := fits
  refine ⟨(Cls.update_nums num p c).trans nums, fun i mem => ?_, programming⟩
  obtain ⟨k, memk, rfl⟩ := List.mem_map.1 (Cls.update_items p f c ▸ mem)
  split_ifs with named
  · exact shape k named (items k memk)
  · exact items k memk

theorem Cls.storeFits_programming {c : Cls} {programming : Option Programming} (words : programmingFits programming)
    (fits : c.storeFits = true) : Cls.storeFits { c with programming := programming } = true := by
  rw [Cls.storeFits_iff] at *
  exact ⟨fits.1, fits.2.1, words⟩

theorem programmingFits_none : programmingFits none := fun _ e => nomatch e

theorem specOf_default {n : Nat} {spec : ItemSpec} (known : specOf n = some spec) :
    spec.default.length = spec.words ∧ spec.words ≤ 16 := by
  have table : ∀ i ∈ itemSpecs, i.default.length = i.words ∧ i.words ≤ 16 := by decide
  exact table spec (specOf_num known).2

theorem Item.resolve_shape {i : Item} (h : i.hasShape) : i.resolve.hasShape := by
  intro spec known
  rw [i.resolve_num] at known
  obtain ⟨stored, -⟩ := h spec known
  unfold Item.resolve
  rw [known]
  dsimp only
  refine ⟨stored, ?_⟩
  split
  · exact stored
  · exact (specOf_default known).1

theorem Item.fail_shape {i : Item} (h : i.hasShape) : i.fail.hasShape := by
  intro spec known
  have held : i.fail.held = spec.default := by
    change defaultOf i.num = _
    rw [defaultOf, show specOf i.num = some spec from known]
  exact ⟨(h spec known).1, held ▸ (specOf_default known).1⟩

theorem Cls.load_storeFits {c : Cls} (fits : c.storeFits = true) : c.load.storeFits = true := by
  have resolved : c.resolved.storeFits = true :=
    Cls.update_storeFits Item.resolve_num (fun _ _ => Item.resolve_shape) fits
  rw [Cls.load_eq]
  change c.resolved.retested.storeFits = true
  unfold Cls.retested
  split
  · exact resolved
  · exact Cls.update_storeFits Item.fail_num (fun _ _ => Item.fail_shape) resolved

/-- The store keeps its shape where one item takes stored words of the right number. -/
theorem Cls.storeFits_stored {c : Cls} {p : Programming} (programming : c.programming = some p) {ws : List Word}
    (length : ws.length = p.words.length) (checkOk : Bool) (fits : c.storeFits = true) :
    (c.update (fun n => n = p.item) (fun i => { i with stored := ws, checkOk := checkOk })).storeFits = true := by
  refine Cls.update_storeFits (fun _ => rfl) (fun i item shape spec known => ⟨?_, (shape spec known).2⟩) fits
  obtain ⟨-, -, words⟩ := c.storeFits_iff.1 fits
  exact length.trans (words p programming spec (of_decide_eq_true item ▸ known))

theorem Cls.beginReset_storeFits {c : Cls} (powerOn : Bool) (reached : Nat) (fits : c.storeFits = true) :
    (c.beginReset powerOn reached).storeFits = true := by
  change (c.cutProgramming reached).storeFits = true
  unfold Cls.cutProgramming
  split
  · exact fits
  · next p programming =>
    refine Cls.storeFits_programming programmingFits_none (Cls.storeFits_stored programming ?_ _ fits)
    simp only [cutWords, blankWords, List.length_append, List.length_take, List.length_replicate]
    omega

theorem Cls.programmed_storeFits {c : Cls} {p : Programming} (programming : c.programming = some p)
    (fits : c.storeFits = true) : (c.programmed p).storeFits = true :=
  Cls.storeFits_programming programmingFits_none (Cls.storeFits_stored programming rfl _ fits)

/-- A write of as many words as the item has keeps the shape of the store. -/
theorem Cls.take_storeFits {c : Cls} {n : Nat} {ws : List Word}
    (length : ∀ spec, specOf n = some spec → ws.length = spec.words) (fits : c.storeFits = true) :
    (c.take n ws).storeFits = true := by
  refine Cls.storeFits_programming (fun p e spec known => ?_)
    (Cls.update_storeFits (fun _ => rfl) (fun i item shape spec known => ⟨(shape spec known).1, ?_⟩) fits)
  · obtain rfl := Option.some.inj e
    exact length spec known
  · exact length spec (of_decide_eq_true item ▸ known)

/-- U_init in force is that of the words held (R179). -/
theorem Cls.update_uInit {f : Item → Item} (num : ∀ i, (f i).num = i.num) (held : ∀ i, (f i).held = i.held)
    (p : Nat → Bool) (c : Cls) : (c.update p f).value 21 = c.value 21 := by
  have numIf (i : Item) : (if p i.num then f i else i).num = i.num := by split <;> simp [num]
  have heldIf (i : Item) : (if p i.num then f i else i).held = i.held := by split <;> simp [held]
  rw [Cls.value_held _ rfl, Cls.value_held _ rfl, Cls.update_items, List.find?_map]
  simp only [Function.comp_def, numIf, Option.map_map, heldIf]

/-! ### Writes -/

/-- SPM's update stays current where neither the estimate changes nor a U_init that stands in for U_last (R50, R53). -/
theorem State.estimateUpdate_uInit {s t : State} (ibe : t.ibe = s.ibe) (spm : t.spm = s.spm)
    (uInit : t.uInit = s.uInit ∨ s.usesUInit = false) : t.estimateUpdate = s.estimateUpdate := by
  rcases uInit with same | unused
  · exact State.estimateUpdate_congr (by rw [ibe]) (by rw [ibe]) (by rw [ibe]) (by rw [ibe]) (by rw [spm]) same
  · have settled : t.settled = s.settled := by simp only [State.settled, ibe, spm]
    simp only [State.usesUInit, Bool.and_eq_false_iff, Option.isNone_eq_false_iff, Bool.not_eq_false'] at unused
    unfold State.estimateUpdate State.uEval State.degraded State.uLastOrInit
    rw [settled, ibe]
    rcases unused with given | settles
    · obtain ⟨u, uLast⟩ := Option.isSome_iff_exists.1 given
      simp only [uLast, Option.getD_some]
    · have valid : s.ibe.est = .valid := by
        simp only [State.settled, Bool.and_eq_true, decide_eq_true_eq] at settles
        exact settles.1
      simp only [valid, settles, if_true]

theorem State.ifChanged_calm {f : State → State} (calm : ∀ u : State, u.Calm (f u)) (changed : Nat → Bool) (ns : List Nat)
    (s : State) : s.Calm (s.ifChanged changed ns f) := by
  unfold State.ifChanged
  split
  · exact calm s
  · exact .refl s

/-- RTB's and CSM's part of a write. -/
def State.sensingWrite (changed : Nat → Bool) (s : State) : State :=
  let a := s.ifChanged changed [5] (fun t => t.polarityChanged.dropWindows)
  (a.ifChanged changed [23, 24, 25, 26] State.recomputeSag).ifChanged changed [22] State.recomputeMass

@[simp] theorem State.sensingWrite_frame (changed : Nat → Bool) (s : State) :
    (s.sensingWrite changed).rst = s.rst ∧ (s.sensingWrite changed).startUp = s.startUp ∧
    (s.sensingWrite changed).ibe = s.ibe ∧ (s.sensingWrite changed).spm = s.spm ∧
    (s.sensingWrite changed).tmo = s.tmo ∧ (s.sensingWrite changed).lkp = s.lkp ∧
    (s.sensingWrite changed).cls = s.cls := by
  unfold State.sensingWrite State.ifChanged
  dsimp only
  split_ifs <;> simp

/-- What follows IBE's part of a write touches nothing that the invariants read but grant and image. -/
theorem State.consumeWrite_calm (changed : Nat → Bool) (s : State) :
    ((s.sensingWrite changed).estimatorWrite changed).Calm (s.consumeWrite changed) := by
  have ring (f : State → State) (h : ∀ u : State, (f u).rst = u.rst ∧ (f u).startUp = u.startUp ∧ (f u).ibe = u.ibe ∧
      (f u).spm = u.spm ∧ (f u).tmo = u.tmo ∧ (f u).lkp = u.lkp ∧ (f u).cls = u.cls) (u : State) : u.Calm (f u) :=
    State.calm_of_frame (h u)
  have capacity : ∀ u : State, u.Calm u.capacityWrite := ring _ fun u => by
    unfold State.capacityWrite State.removeOrders State.lowerContents
    dsimp only
    split <;> simp
  have aims (u : State) : u.Calm u.reaim := State.calm_of_spm rfl rfl rfl
  exact (State.planReport_calm _).after ((State.ceilingAndGrant_calm _).after
    ((State.ifChanged_calm aims changed [2] _).after
    ((State.ifChanged_calm (ring State.refreeze fun u => by simp) changed [16, 17] _).after
    ((State.ifChanged_calm (ring State.bleedTimers fun u => by simp) changed [15] _).after
    ((State.ifChanged_calm capacity changed [3] _).after
    ((State.ifChanged_calm State.reloadBands_calm changed [38, 39] _).after
    (State.ifChanged_calm (ring State.raiseBands fun u => by simp) changed [14] _)))))))

theorem State.estimatorWrite_shape (changed : Nat → Bool) (s : State) : s.KeepsShape (s.estimatorWrite changed) := by
  have restarts (ns : List Nat) : s.KeepsShape (s.ifChanged changed ns State.restartSmoothing) := by
    unfold State.ifChanged
    split <;> exact ⟨id, id, id, id⟩
  unfold State.estimatorWrite
  dsimp only
  split
  · exact (restarts _).trans (State.giveUpdate_shape _)
  · exact restarts _

/-- IBE gives an update wherever a write changes what the update is made of (R53). -/
theorem State.estimatorWrite_updateCurrent {s u : State} {changed : Nat → Bool} (rst : u.rst = s.rst)
    (ibe : u.ibe = s.ibe) (spm : u.spm = s.spm) (uInit : changed 21 = false → u.uInit = s.uInit)
    (current : s.updateCurrent = true) : (u.estimatorWrite changed).updateCurrent = true := by
  unfold State.estimatorWrite
  dsimp only
  split
  · exact State.giveUpdate_updateCurrent _
  · next still =>
    simp only [Bool.or_eq_true, Bool.and_eq_true, not_or, not_and, Bool.not_eq_true] at still
    obtain ⟨tables, unused⟩ := still
    simp only [State.ifChanged, tables, Bool.false_eq_true, if_false] at unused ⊢
    refine State.updateCurrent_congr rst (by rw [spm]) (State.estimateUpdate_uInit ibe spm ?_) current
    cases initial : changed 21
    · exact Or.inl (uInit initial)
    · right
      simpa only [State.usesUInit, State.settled, ibe, spm] using unused initial

theorem State.takeWrite_keeps {s : State} {n : Nat} {ws : List Word}
    (length : ∀ spec, specOf n = some spec → ws.length = spec.words) : s.Keeps (s.takeWrite n ws) := by
  refine (State.consumeWrite_calm _ _).keeps.after ?_
  generalize hu : ({ s with cls := s.cls.take n ws } : State) = u
  have shape : s.KeepsShape u := by
    rw [← hu]
    exact ⟨id, id, id, Cls.take_storeFits length⟩
  have sensed : u.Calm (u.sensingWrite (s.cls.differs (s.cls.take n ws))) := State.calm_of_frame (by simp)
  refine ⟨shape.trans (sensed.keeps.toKeepsShape.trans (State.estimatorWrite_shape _ _)), ?_⟩
  refine State.estimatorWrite_updateCurrent (by simp [← hu]) (by simp [← hu]) (by simp [← hu]) fun same => ?_
  have words : s.cls.inForce 21 = (s.cls.take n ws).inForce 21 := by simpa [Cls.differs] using same
  simp only [State.uInit, Cls.value, sensed.cls]
  rw [← hu, words]

theorem State.programmingDone_keeps (s : State) : s.Keeps s.programmingDone := by
  unfold State.programmingDone
  split
  · exact .refl s
  · next p programming =>
    refine ⟨⟨id, id, id, Cls.programmed_storeFits programming⟩, State.updateCurrent_congr rfl rfl ?_⟩
    refine State.estimateUpdate_congr rfl rfl rfl rfl rfl ?_
    exact Cls.update_uInit (f := fun i => { i with stored := p.words, checkOk := true }) (fun _ => rfl) (fun _ => rfl)
      (fun n => n = p.item) s.cls

/-- CLS's own record may differ in all but items and programming. -/
theorem State.keeps_of_cls {s : State} {c : Cls} (items : c.items = s.cls.items)
    (programming : c.programming = s.cls.programming) : s.Keeps { s with cls := c } := by
  have fits : c.storeFits = s.cls.storeFits := by simp only [Cls.storeFits, items, programming]
  have uInit : c.value 21 = s.cls.value 21 := by rw [Cls.value_held _ rfl, Cls.value_held _ rfl, items]
  exact ⟨⟨id, id, id, fun h => fits.trans h⟩,
    State.updateCurrent_congr rfl rfl (State.estimateUpdate_congr rfl rfl rfl rfl rfl uInit)⟩

theorem State.lockService_keeps (s : State) : s.Keeps s.lockService := by
  have locks : s.Keeps { s with cls := { s.cls with unlocked := false } } := State.keeps_of_cls rfl rfl
  unfold State.lockService
  dsimp only
  split
  · exact (State.changeGuard_keeps _ _).after locks
  · exact locks

/-! ### Resets -/

theorem State.partConsistent_starting {s : State} (part : s.lkp.part = .starting)
    (startUp : s.startUp.isSome = true ↔ s.inReset = false) (quietTimer : s.lkp.quietTimer = none)
    (wakeTimer : s.lkp.wakeTimer = none) : s.partConsistent = true :=
  s.partConsistent_iff.2 ⟨fun _ => part, by simp [part, startUp], by simp [part, quietTimer], by simp [part, wakeTimer]⟩

theorem State.beginReset_keeps {powerOn : Bool} {reached : Nat} {rst : ResetControl} {s : State}
    (inForce : (s.beginReset powerOn reached rst).inReset = true) : s.Keeps (s.beginReset powerOn reached rst) where
  image _ := by simp [State.imageCurrent, State.beginReset, State.holdBlocks, Spm.held, Lkp.held]
  causes _ := by simp [State.causesConsistent, State.beginReset, State.holdBlocks, Tmo.held]
  part _ := State.partConsistent_starting rfl (by rw [inForce]; simp [State.beginReset, State.holdBlocks]) rfl rfl
  store := s.cls.beginReset_storeFits powerOn reached
  update _ := by simp [State.updateCurrent, inForce]

/-- The part after the end of the last reset has its invariants whatever it had before (R179, R185, R186). -/
theorem State.endReset_keeps {s u : State} (store : u.cls = s.cls) : s.Keeps u.endReset := by
  obtain ⟨-, rst, startUp, -, -, ibe, -, tmo, cls⟩ := u.endReset_blocks
  obtain ⟨-, -, -, update, -, -⟩ := u.endReset_plan
  have lkp := u.endReset_lkp
  have outside : u.endReset.inReset = false := by simp [State.inReset, rst]
  refine ⟨⟨fun _ => ?_, fun _ => ?_, fun _ => ?_, fun fits => ?_⟩, fun _ => ?_⟩
  · rw [State.imageCurrent, lkp]
    simp [Lkp.held]
  · simp [State.causesConsistent, tmo, Tmo.held]
  · exact State.partConsistent_starting (by rw [lkp]; rfl) (by simp [startUp, outside]) (by rw [lkp]; rfl)
      (by rw [lkp]; rfl)
  · rw [cls, store]
    exact Cls.load_storeFits fits
  · simp [State.updateCurrent, update, State.estimateUpdate_held ibe]

end Sys2Proof.Machine
end

section
/-! The invariants over the requests: one lemma for the work of each request, one per owner, and a frame's way to its owner. -/

namespace Sys2Proof.Machine

/-! ### The work of requests that are taken -/

theorem State.planAppended_calm (s : State) : s.Calm s.planAppended := by
  unfold State.planAppended
  split
  · exact (State.planReport_calm _).after ((State.refreshGrant_calm _).after (s.planBecomes_calm _))
  · exact .refl s

theorem State.rampAgain_calm (old : Plateau) (s : State) : s.Calm (s.rampAgain old) := by
  unfold State.rampAgain
  split
  · exact (s.updateActive_calm _).withSpm rfl rfl rfl
  · exact .refl s

theorem State.amendTaken_calm (p : Plateau) (v : PlateauParams) (s : State) : s.Calm (s.amendTaken p v) := by
  have given := s.updateActive_calm (Plateau.give s.smax v)
  unfold State.amendTaken
  dsimp only
  split
  · exact (State.endActive_calm _ _).after given
  · have ramps := (State.rampAgain_calm p _).after given
    split
    · exact (State.derive_calm _ _).after ramps
    · exact ramps

theorem State.withdrawQueued_calm (slot : Nat) (s : State) : s.Calm (s.withdrawQueued slot) := by
  have removes : s.Calm { s with spm := { s.spm with plateaus := removeSlot slot s.spm.plateaus } } :=
    State.calm_of_spm rfl rfl rfl
  unfold State.withdrawQueued
  dsimp only
  split
  · exact (State.planReport_calm _).after ((State.refreshGrant_calm _).after ((State.planBecomes_calm _ _).after removes))
  · exact removes

/-- The plan is RUNNING and the partner is told (R102, R104). -/
theorem State.planRuns_calm (s : State) :
    s.Calm (State.post .planState { s with spm := { s.spm with plan := .running } }) :=
  (State.post_calm _ _).after (State.calm_of_spm rfl rfl rfl)

/-- The estimate is nothing to image, causes, part state and store. -/
theorem State.keepsShape_of_frame {s t : State} (h : t.rst = s.rst ∧ t.startUp = s.startUp ∧ t.spm = s.spm ∧
    t.tmo = s.tmo ∧ t.lkp = s.lkp ∧ t.cls = s.cls) : s.KeepsShape t := by
  obtain ⟨rst, startUp, spm, tmo, lkp, cls⟩ := h
  constructor <;>
    simp [State.imageCurrent, State.causesConsistent, State.partConsistent, State.inReset, rst, startUp, spm, tmo, lkp, cls]

theorem State.startPlan_keeps (s : State) : s.Keeps s.startPlan := by
  have starts (u : State) : u.KeepsShape u.estimatorStart := State.keepsShape_of_frame (by simp)
  have given := ((s.planRuns_calm.keeps.toKeepsShape.trans (starts _)).trans (State.giveUpdate_shape _)).current
    (State.giveUpdate_updateCurrent _)
  exact ((State.planReport_calm _).after ((State.activateNext_calm _).after (State.ceilingAndGrant_calm _))).keeps.after
    given

theorem State.resumePlan_calm (s : State) : s.Calm s.resumePlan :=
  (State.planReport_calm _).after ((State.derive_calm _ _).after ((State.updateActive_calm _ _).after s.planRuns_calm))

theorem State.cancelOrders_calm (s : State) : s.Calm s.cancelOrders := State.calm_of_frame (by simp)

theorem State.abortPlan_calm (s : State) : s.Calm s.abortPlan :=
  (State.planReport_calm _).after ((State.refreshGrant_calm _).after ((State.post_calm _ _).after
    ((State.post_calm _ _).after (s.cancelOrders_calm.withSpm (by simp) (by simp) (by simp)))))

theorem State.clearPlan_calm (s : State) : s.Calm s.clearPlan := by
  have empties : s.Calm { s with spm := { s.spm with plateaus := [] } } := State.calm_of_spm rfl rfl rfl
  exact (State.planReport_calm _).after ((State.refreshGrant_calm _).after ((State.changeBands_calm _ _).after
    ((State.planBecomes_calm _ _).after empties)))

theorem Ibe.withSource_estimate (source : Option (Fin 4)) (b : Ibe) :
    (b.withSource source).est = b.est ∧ (b.withSource source).settle = b.settle ∧ (b.withSource source).uS = b.uS ∧
      (b.withSource source).uLast = b.uLast := by
  unfold Ibe.withSource
  split <;> exact ⟨rfl, rfl, rfl, rfl⟩

theorem State.amendLoad_keeps (source : Option (Fin 4)) (s : State) : s.Keeps (s.amendLoad source) := by
  obtain ⟨est, settle, uS, uLast⟩ := s.ibe.withSource_estimate source
  have declared : s.Calm { s with ibe := s.ibe.withSource source } := State.calm_of_ibe est settle uS uLast
  have restarts (u : State) : u.KeepsShape u.restartSmoothing := ⟨id, id, id, id⟩
  unfold State.amendLoad
  dsimp only
  split
  · exact declared.keeps
  · exact State.handUpdate_keeps (declared.keeps.toKeepsShape.trans (restarts _))

theorem State.injectTaken_calm (v : Injection) (s : State) : s.Calm (s.injectTaken v) :=
  (State.ordersTaken_calm _).after (State.calm_of_frame (by simp))

/-! ### Owners -/

/-- An owner keeps the invariants at whatever frame and state. -/
def Owner.keeps (own : Owner) : Prop := ∀ (f : Frame) (s : State), s.Keeps (own f s).state

/-- The frames that come to their owner: a LOOKUP in any part state, and in RUN any frame that passes the form check (R167). -/
def Frame.taken (f : Frame) (s : State) : Prop := f.kind = 1#8 ∨ (s.lkp.part = .run ∧ f.formOk = true)

/-- An owner keeps the invariants wherever a frame comes to it. -/
def Owner.keepsTaken (own : Owner) (f : Frame) : Prop := ∀ s : State, f.taken s → s.Keeps (own f s).state

theorem Owner.keeps.onTaken {own : Owner} (h : own.keeps) (f : Frame) : own.keepsTaken f := fun s _ => h f s

theorem State.withSlot_keeps {s : State} {g : Plateau → Reply} (keeps : ∀ p, s.Keeps (g p).state) (slot : Nat) :
    s.Keeps (s.withSlot slot g).state := by
  unfold State.withSlot
  split
  · exact .refl s
  · split
    · exact .refl s
    · exact keeps _

theorem State.withBand_keeps {s : State} {g : Band → Reply} (keeps : ∀ b, s.Keeps (g b).state) (id : Nat) :
    s.Keeps (s.withBand id g).state := by
  unfold State.withBand
  split
  · exact .refl s
  · split
    · exact .refl s
    · exact keeps _

/-- LKP's own record may differ in all but part, its timers and the image. -/
theorem State.calm_of_lkp {s : State} {v : Lkp} (part : v.part = s.lkp.part) (quietTimer : v.quietTimer = s.lkp.quietTimer)
    (wakeTimer : v.wakeTimer = s.lkp.wakeTimer) (image : v.image = s.lkp.image) : s.Calm { s with lkp := v } :=
  State.SameReads.calm ⟨rfl, rfl, rfl, rfl, part, quietTimer, wakeTimer, image, rfl, rfl, rfl, rfl, rfl, rfl, rfl, rfl⟩

theorem ownNothing_keeps : Owner.keeps ownNothing := fun _ s => .refl s

theorem ownLookupPlan_keeps : Owner.keeps ownLookupPlan := fun _ s => .refl s

theorem ownLookupPlateau_keeps : Owner.keeps ownLookupPlateau := fun _ s => s.withSlot_keeps (fun _ => .refl s) _

theorem ownLookupGrant_keeps : Owner.keeps ownLookupGrant := by
  intro f s
  change s.Keeps (if f.port = .drive then { s with lkp := { s.lkp with driveAtn := false } } else s)
  split
  · exact State.Calm.keeps (State.calm_of_lkp rfl rfl rfl rfl)
  · exact .refl s

theorem ownLookupEstimate_keeps : Owner.keeps ownLookupEstimate := by
  intro f s
  unfold ownLookupEstimate
  split <;> exact .refl s

theorem State.delayedLookup_keeps (k : DelayedKey) (p : Port) (s : State) : s.Keeps (s.delayedLookup k p).state := by
  unfold State.delayedLookup
  split
  · exact .refl s
  · split
    · exact State.Calm.keeps (State.calm_of_ibe rfl rfl rfl rfl)
    · exact .refl s
    · exact .refl s

theorem ownLookupEstimateDelayed_keeps : Owner.keeps ownLookupEstimateDelayed := by
  intro f s
  unfold ownLookupEstimateDelayed
  dsimp only
  split
  · split
    · exact State.Calm.keeps (State.calm_of_ibe rfl rfl rfl rfl)
    · exact .refl s
    · exact .refl s
  · exact s.delayedLookup_keeps _ _

theorem ownLookupLoad_keeps : Owner.keeps ownLookupLoad := fun _ s => .refl s

theorem ownLookupBand_keeps : Owner.keeps ownLookupBand := fun _ s => s.withBand_keeps (fun _ => .refl s) _

theorem ownLookupChamber_keeps : Owner.keeps ownLookupChamber := by
  intro f s
  unfold ownLookupChamber
  split <;> exact .refl s

theorem ownLookupQueue_keeps : Owner.keeps ownLookupQueue := by
  intro f s
  unfold ownLookupQueue
  split
  · exact .refl s
  · split
    · exact .refl s
    · split <;> exact .refl s

theorem ownLookupStatus_keeps : Owner.keeps ownLookupStatus := by
  intro f s
  unfold ownLookupStatus
  dsimp only
  split
  · exact State.Calm.keeps (State.calm_of_lkp rfl rfl rfl rfl)
  · exact .refl s

theorem ownLookupCal_keeps : Owner.keeps ownLookupCal := by
  intro f s
  unfold ownLookupCal
  split
  · exact .refl s
  · split <;> exact .refl s

theorem ownAppend_keeps : Owner.keeps ownAppend := by
  intro f s
  unfold ownAppend
  dsimp only
  split_ifs
  · exact .refl s
  · exact .refl s
  · exact .refl s
  · have appends (ps : List Plateau) : s.Calm { s with spm := { s.spm with plateaus := ps } } :=
      State.calm_of_spm rfl rfl rfl
    exact ((State.planAppended_calm _).after (appends _)).keeps

theorem State.amendQueued_keeps (slot : Nat) (v : PlateauParams) (s : State) : s.Keeps (s.amendQueued slot v).state := by
  unfold State.amendQueued
  split
  · exact .refl s
  · exact State.Calm.keeps (State.calm_of_spm rfl rfl rfl)

theorem State.amendActive_keeps (p : Plateau) (v : PlateauParams) (s : State) : s.Keeps (s.amendActive p v).state := by
  unfold State.amendActive
  generalize (if p.autoBalance then 1 else 0) = asked
  split_ifs
  · exact .refl s
  · exact .refl s
  · exact ((State.planReport_calm _).after (s.amendTaken_calm p v)).keeps

theorem ownAmendPlateau_keeps : Owner.keeps ownAmendPlateau := by
  intro f s
  refine s.withSlot_keeps (fun p => ?_) _
  split
  · exact s.amendQueued_keeps _ _
  · exact s.amendActive_keeps p _
  · exact .refl s
  · exact .refl s

theorem ownWithdraw_keeps : Owner.keeps ownWithdraw := by
  intro f s
  refine s.withSlot_keeps (fun p => ?_) _
  split
  · exact (s.withdrawQueued_calm _).keeps
  · exact ((State.planReport_calm _).after (s.endActive_calm _)).keeps
  · exact .refl s
  · exact .refl s

theorem ownRetirePlateau_keeps : Owner.keeps ownRetirePlateau := by
  intro f s
  refine s.withSlot_keeps (fun p => ?_) _
  split
  · exact State.Calm.keeps (State.calm_of_spm rfl rfl rfl)
  · exact .refl s

theorem ownStart_keeps : Owner.keeps ownStart := by
  intro f s
  unfold ownStart
  split_ifs
  · exact .refl s
  · exact .refl s
  · exact .refl s
  · exact .refl s
  · exact s.startPlan_keeps

theorem ownPause_keeps : Owner.keeps ownPause := by
  intro f s
  unfold ownPause
  split
  · exact ((State.planReport_calm _).after ((State.refreshGrant_calm _).after (s.pausePlan_calm _))).keeps
  · exact .refl s

theorem ownResume_keeps : Owner.keeps ownResume := by
  intro f s
  unfold ownResume
  split
  · exact s.resumePlan_calm.keeps
  · exact .refl s

theorem ownNext_keeps : Owner.keeps ownNext := by
  intro f s
  refine s.withSlot_keeps (fun p => ?_) _
  split
  · exact ((State.planReport_calm _).after (s.endActive_calm _)).keeps
  · exact .refl s

theorem ownAbort_keeps : Owner.keeps ownAbort := by
  intro f s
  unfold ownAbort
  split
  · exact s.abortPlan_calm.keeps
  · exact .refl s

theorem ownClear_keeps : Owner.keeps ownClear := by
  intro f s
  unfold ownClear
  split
  · exact .refl s
  · exact s.clearPlan_calm.keeps

theorem ownGuard_keeps : Owner.keeps ownGuard := by
  intro f s
  unfold ownGuard
  split
  · exact .refl s
  · split
    · exact .refl s
    · exact s.changeGuard_keeps _

theorem ownDeclare_keeps : Owner.keeps ownDeclare := by
  intro f s
  unfold ownDeclare
  split
  · split
    · exact (s.changeBands_calm _).keeps
    · exact (s.changeBands_calm _).keeps
    · exact .refl s
  · exact .refl s

theorem ownRetireBand_keeps : Owner.keeps ownRetireBand := by
  intro f s
  refine s.withBand_keeps (fun b => ?_) _
  split
  · exact .refl s
  · exact (s.changeBands_calm _).keeps

theorem ownPin_keeps : Owner.keeps ownPin := by
  intro f s
  unfold ownPin
  split
  · exact .refl s
  · refine s.withBand_keeps (fun b => ?_) _
    split
    · exact (s.changeBands_calm _).keeps
    · exact .refl s

theorem ownAmendLoad_keeps : Owner.keeps ownAmendLoad := by
  intro f s
  unfold ownAmendLoad
  split
  · exact .refl s
  · split
    · exact .refl s
    · exact s.amendLoad_keeps _

theorem ownInject_keeps : Owner.keeps ownInject := by
  intro f s
  unfold ownInject
  dsimp only
  split
  · exact .refl s
  · exact (s.injectTaken_calm _).keeps

theorem ownFlush_keeps : Owner.keeps ownFlush := fun _ s => State.Calm.keeps (State.calm_of_frame (by simp [ownFlush]))

theorem ownCancel_keeps : Owner.keeps ownCancel := fun _ s => s.cancelOrders_calm.keeps

theorem ownClearTrip_keeps : Owner.keeps ownClearTrip := by
  intro f s
  unfold ownClearTrip
  split_ifs
  · exact .refl s
  · exact .refl s
  · exact .refl s
  · exact s.clearTrip_keeps

theorem ownReset_keeps : Owner.keeps ownReset := fun _ s => .refl s

theorem ownKeyVerify_keeps : Owner.keeps ownKeyVerify := by
  intro f s
  unfold ownKeyVerify
  split
  · exact .refl s
  · split_ifs
    · exact .refl s
    · exact State.keeps_of_cls rfl rfl
    · exact State.keeps_of_cls rfl rfl

theorem ownLock_keeps : Owner.keeps ownLock := fun _ s => s.lockService_keeps

/-- QUIET begins from RUN alone (R167, R174). -/
theorem ownQuiet_keepsTaken {f : Frame} (command : f.kind = 6#8) : Owner.keepsTaken ownQuiet f := by
  intro s taken
  have run : s.lkp.part = .run := by
    rcases taken with lookup | ⟨run, -⟩
    · exact absurd (lookup.symm.trans command) (by decide)
    · exact run
  unfold ownQuiet
  dsimp only
  split_ifs
  · exact .refl s
  · exact .refl s
  · exact .refl s
  · exact .refl s
  · exact State.quietTaken_keeps run _

/-- A CAL_WRITE that passes the form check carries 16 words (Table 11-4). -/
theorem Frame.calWrite_length {f : Frame} (formOk : f.formOk = true) (calWrite : f.kind = 10#8) :
    f.params.length = 16 := by
  have counts : ∀ fm ∈ forms, fm.kind = 10#8 → fm.counts = [16] := by decide
  obtain ⟨fm, mem, admits⟩ := List.any_eq_true.1 formOk
  simp only [Form.admits, Bool.and_eq_true, decide_eq_true_eq] at admits
  obtain ⟨⟨⟨kind, -⟩, -⟩, length⟩ := admits
  rw [counts fm mem (kind.trans calWrite)] at length
  simpa using length

/-- A write that is taken has as many words as its item (R180). -/
theorem ownCalWrite_keepsTaken {f : Frame} (calWrite : f.kind = 10#8) : Owner.keepsTaken ownCalWrite f := by
  intro s taken
  have length : f.params.length = 16 := by
    rcases taken with lookup | ⟨-, formOk⟩
    · exact absurd (lookup.symm.trans calWrite) (by decide)
    · exact f.calWrite_length formOk calWrite
  unfold ownCalWrite
  split
  · next spec i known item =>
    dsimp only
    split
    · exact .refl s
    · split
      · exact .refl s
      · refine State.takeWrite_keeps fun spec' known' => ?_
        rw [(specOf_num known).1, known] at known'
        obtain rfl := Option.some.inj known'
        rw [List.length_take, length, Nat.min_eq_left (specOf_default known).2]
  · exact .refl s

theorem lookupOwner_keeps (f : Frame) : (lookupOwner f).keeps := by
  unfold lookupOwner
  split
  · exact ownLookupPlan_keeps
  · exact ownLookupPlateau_keeps
  · exact ownLookupGrant_keeps
  · split
    · exact ownLookupEstimateDelayed_keeps
    · exact ownLookupEstimate_keeps
  · exact ownLookupBand_keeps
  · exact ownLookupChamber_keeps
  · exact ownLookupQueue_keeps
  · exact ownLookupLoad_keeps
  · exact ownLookupStatus_keeps
  · exact ownLookupCal_keeps
  · exact ownNothing_keeps

theorem commandOwner_keepsTaken {f : Frame} (command : f.kind = 6#8) : (commandOwner f).keepsTaken f := by
  unfold commandOwner
  split
  · exact ownStart_keeps.onTaken f
  · exact ownPause_keeps.onTaken f
  · exact ownResume_keeps.onTaken f
  · exact ownNext_keeps.onTaken f
  · exact ownAbort_keeps.onTaken f
  · exact ownClear_keeps.onTaken f
  · exact ownClearTrip_keeps.onTaken f
  · exact ownFlush_keeps.onTaken f
  · exact ownCancel_keeps.onTaken f
  · exact ownGuard_keeps.onTaken f
  · exact ownQuiet_keepsTaken command
  · exact ownLock_keeps.onTaken f
  · exact ownReset_keeps.onTaken f
  · exact ownNothing_keeps.onTaken f

theorem ownerOf_keepsTaken (f : Frame) : (ownerOf f).keepsTaken f := by
  unfold ownerOf
  split
  · exact (lookupOwner_keeps f).onTaken f
  · exact ownAppend_keeps.onTaken f
  · split
    · exact ownAmendPlateau_keeps.onTaken f
    · exact ownAmendLoad_keeps.onTaken f
  · exact ownWithdraw_keeps.onTaken f
  · split
    · exact ownRetirePlateau_keeps.onTaken f
    · exact ownRetireBand_keeps.onTaken f
  · next command => exact commandOwner_keepsTaken (BitVec.eq_of_toNat_eq command)
  · exact ownInject_keeps.onTaken f
  · exact ownDeclare_keeps.onTaken f
  · exact ownPin_keeps.onTaken f
  · next calWrite => exact ownCalWrite_keepsTaken (BitVec.eq_of_toNat_eq calWrite)
  · exact ownKeyVerify_keeps.onTaken f
  · exact ownNothing_keeps.onTaken f

end Sys2Proof.Machine
end

section
/-! The invariants over a frame's way to its owner, the ports, and every command. -/

namespace Sys2Proof.Machine

/-! ### A frame's way to its owner -/

theorem State.finish_keeps {s : State} {r : Reply} (h : s.Keeps r.state) (f : Frame) : s.Keeps (State.finish f r) :=
  (State.setPort_calm _ _ _).keeps.after h

theorem State.examine_keeps {own : Owner} {f : Frame} (keeps : own.keepsTaken f) {s : State}
    (comes : f.kind = 1#8 ∨ s.lkp.part = .run) : s.Keeps (s.examine own f).state := by
  unfold State.examine
  split
  · exact .refl s
  · next formOk =>
    simp only [Bool.not_eq_true', Bool.not_eq_false] at formOk
    split
    · exact .refl s
    · exact keeps s (comes.imp_right fun run => ⟨run, formOk⟩)

/-- A frame that comes while quiet is pending cancels it, or is a LOOKUP (R175; log 21). -/
theorem State.cancelledBy_comes {f : Frame} {s : State} (pending : s.lkp.part = .quietPending) :
    f.kind = 1#8 ∨ (s.cancelledBy f).lkp.part = .run := by
  unfold State.cancelledBy
  split
  · exact Or.inr (State.setPart_spec .run _).1
  · next stays =>
    simp only [pending, Frame.isLookup] at stays
    simp_all

theorem State.cancelledBy_keeps (f : Frame) (s : State) : s.Keeps (s.cancelledBy f) := by
  unfold State.cancelledBy
  split
  · next cancels =>
    simp only [Bool.and_eq_true, decide_eq_true_eq] at cancels
    exact State.cancelQuiet_keeps cancels.1
  · exact .refl s

theorem Frame.driveGrant_lookup {f : Frame} (h : f.driveGrant = true) : f.kind = 1#8 := by
  simp only [Frame.driveGrant, Frame.isLookup, Bool.and_eq_true, decide_eq_true_eq] at h
  exact h.1.2.1

theorem State.dealAddressed_keeps {own : Owner} {f : Frame} (keeps : own.keepsTaken f) (s : State) :
    s.Keeps (s.dealAddressed own f).state := by
  have grants (h : f.driveGrant = true) : s.Keeps (own f s).state := keeps s (Or.inl (f.driveGrant_lookup h))
  unfold State.dealAddressed
  split
  · exact .refl s
  · split
    · next grant => exact grants grant
    · exact s.wakeSource_keeps true
  · split
    · next grant => exact grants grant
    · exact .refl s
  · next pending =>
    split
    · next grant => exact grants grant
    · exact (State.examine_keeps keeps (State.cancelledBy_comes pending)).after (s.cancelledBy_keeps f)
  · next run => exact State.examine_keeps keeps (Or.inr run)

theorem State.dealBroadcast_keeps {own : Owner} {f : Frame} (keeps : own.keepsTaken f) (s : State) :
    s.Keeps (s.dealBroadcast own f) := by
  unfold State.dealBroadcast
  split
  · exact .refl s
  · exact s.wakeSource_keeps true
  · exact .refl s
  · next pending =>
    dsimp only
    split
    · next quiet =>
      simp only [Bool.and_eq_true] at quiet
      exact (keeps _ ((State.cancelledBy_comes pending).imp_right fun run => ⟨run, quiet.1⟩)).after (s.cancelledBy_keeps f)
    · exact s.cancelledBy_keeps f
  · next run =>
    split
    · next quiet =>
      simp only [Bool.and_eq_true] at quiet
      exact keeps s (Or.inr ⟨run, quiet.1⟩)
    · exact .refl s

theorem State.receiveBusy_keeps (f : Frame) (s : State) : s.Keeps (s.receiveBusy f) := by
  unfold State.receiveBusy
  split
  · exact s.wakeSource_keeps true
  · exact .refl s

theorem State.deliver_keeps {own : Owner} {f : Frame} (keeps : own.keepsTaken f) (s : State) :
    s.Keeps (s.deliver own f) := by
  have clears : s.Keeps (s.clearRx f.port) := (s.setPort_calm _ _).keeps
  unfold State.deliver
  dsimp only
  split
  · exact clears
  · refine State.Keeps.after ?_ clears
    unfold State.receiveBroadcast
    split
    · exact State.dealBroadcast_keeps keeps _
    · exact State.receiveBusy_keeps f _
  · refine State.Keeps.after ?_ clears
    unfold State.receiveAddressed
    dsimp only
    split
    · exact State.finish_keeps (State.dealAddressed_keeps keeps _) f
    · split
      · exact (State.setPort_calm _ _ _).keeps.after (State.receiveBusy_keeps f _)
      · exact State.receiveBusy_keeps f _

/-! ### Characters, gaps and answers -/

theorem State.takeByte_keeps (p : Port) (bs : List Byte) (s : State) : s.Keeps (s.takeByte ownerOf p bs) := by
  have receives (r : Rx) : s.Keeps (s.setRx p r) := (s.setPort_calm _ _).keeps
  unfold State.takeByte
  split
  · exact receives _
  · split
    · dsimp only
      split
      · exact (State.deliver_keeps (ownerOf_keepsTaken _) _).after (receives _)
      · exact receives _
    · exact receives _

theorem State.takeCharacter_keeps (p : Port) (b : Byte) (stopBit : Bool) (s : State) :
    s.Keeps (s.takeCharacter ownerOf p b stopBit) := by
  unfold State.takeCharacter
  dsimp only
  split
  · exact (s.setPort_calm _ _).keeps
  · split
    · exact s.takeByte_keeps p _
    · exact (s.setPort_calm _ _).keeps

theorem State.gapTimeout_keeps (p : Port) (s : State) : s.Keeps (s.gapTimeout p) := by
  have waits (n : Nat) : s.Calm { s with time := n } := State.calm_of_frame (by simp)
  unfold State.gapTimeout
  dsimp only
  split
  · exact .refl s
  · exact ((State.setPort_calm _ _ _).after (waits _)).keeps

theorem State.answerSent_keeps (p : Port) (s : State) : s.Keeps (s.answerSent p) := by
  unfold State.answerSent
  split
  · exact .refl s
  · split
    · exact .refl s
    · split
      · exact State.beginReset_keeps (by simp [State.inReset, State.beginReset, State.holdBlocks, State.timerFor])
      · exact (s.setPort_calm _ _).keeps

/-! ### Commands -/

/-- An outcome is a next state that has the invariants of `s`. -/
def keepsNext (s : State) (o : Host.Outcome State Fault Refusal) : Prop := ∃ t, o = .next t ∧ s.Keeps t

theorem keepsNext_next {s t : State} (h : s.Keeps t) : keepsNext s (.next t) := ⟨t, rfl, h⟩

theorem State.elapse_keeps (n : Nat) (s : State) : s.Keeps (s.elapse n) := (State.calm_of_frame (by simp [State.elapse])).keeps

theorem received_keeps {own : Owner} {f : Frame} (keeps : own.keepsTaken f) (after : Nat) (s : State) :
    keepsNext s (received after own f s) :=
  keepsNext_next ((State.deliver_keeps keeps _).after (s.elapse_keeps after))

theorem fromOutside_keeps {f : State → State} (keeps : ∀ u : State, u.Keeps (f u)) (after : Nat) (s : State) :
    keepsNext s (fromOutside after f s) := by
  refine keepsNext_next ?_
  split
  · exact s.elapse_keeps after
  · exact (keeps _).after (s.elapse_keeps after)

/-- A timer's running out keeps the invariants where its work does at the timer's instant. -/
theorem onExpiry_keeps {f : State → State} {timer : Option Nat} {s : State}
    (keeps : timer.isSome = true → ∀ n, State.Keeps { s with time := n } (f { s with time := n })) :
    keepsNext s (onExpiry timer f s) := by
  unfold onExpiry
  split
  · exact keepsNext_next (.refl s)
  · refine keepsNext_next ?_
    have waits (n : Nat) : s.Keeps { s with time := n } := (State.calm_of_frame (by simp)).keeps
    split
    · exact .refl s
    · exact (keeps rfl _).after (waits _)

/-- Work that keeps the invariants at every state keeps them at a timer's running out. -/
theorem onExpiry_keeps_always {f : State → State} (keeps : ∀ u : State, u.Keeps (f u)) (timer : Option Nat) (s : State) :
    keepsNext s (onExpiry timer f s) :=
  onExpiry_keeps fun _ _ => keeps _

theorem execPowerOn_keeps (after reached : Nat) (s : State) : keepsNext s (execPowerOn after reached s) :=
  keepsNext_next ((State.beginReset_keeps
    (by simp [State.inReset, State.beginReset, State.holdBlocks, State.timerFor])).after (s.elapse_keeps after))

theorem execResetNAsserted_keeps (after reached : Nat) (s : State) : keepsNext s (execResetNAsserted after reached s) := by
  refine keepsNext_next ?_
  split
  · exact s.elapse_keeps after
  · exact (State.beginReset_keeps (by simp [State.inReset, State.beginReset, State.holdBlocks])).after (s.elapse_keeps after)

/-- One of two resets in force may end without a change of what the invariants say. -/
theorem State.keeps_of_rst {s : State} {rst : ResetControl} (before : s.inReset = true)
    (after : State.inReset { s with rst := rst } = true) : s.Keeps { s with rst := rst } := by
  refine ⟨⟨id, id, fun i => ?_, id⟩, fun _ => by simp [State.updateCurrent, after]⟩
  simpa only [State.partConsistent, before, after] using i

theorem execResetNNegated_keeps (after : Nat) (s : State) : keepsNext s (execResetNNegated after s) := by
  refine keepsNext_next (State.Keeps.after ?_ (s.elapse_keeps after))
  generalize s.elapse after = t
  split
  · exact .refl t
  · split
    · next resetN timer =>
      exact State.keeps_of_rst (by simp [State.inReset, timer]) (by simp [State.inReset, timer])
    · exact State.endReset_keeps rfl

theorem execResetTimerExpiry_keeps (s : State) : keepsNext s (execResetTimerExpiry s) := by
  unfold execResetTimerExpiry
  split
  · exact keepsNext_next (.refl s)
  · next n timer =>
    have waits : s.Keeps { s with time := max s.time n } := (State.calm_of_frame (by simp)).keeps
    refine keepsNext_next ?_
    dsimp only
    split
    · next resetN =>
      exact (State.keeps_of_rst (s := { s with time := max s.time n }) (by simp [State.inReset, timer])
        (by simp [State.inReset, resetN])).after waits
    · exact State.endReset_keeps rfl

theorem execEndOfStartUp_keeps (s : State) : keepsNext s (execEndOfStartUp s) := by
  refine onExpiry_keeps fun running n => (State.post_calm _ _).keeps.after ?_
  generalize hu : ({ s with time := n } : State) = u
  have started : u.startUp.isSome = true := by rw [← hu]; exact running
  refine State.setPart_keeps (startUp := none) (quietTimer := u.lkp.quietTimer) (wakeTimer := u.lkp.wakeTimer)
    fun fits => ?_
  obtain ⟨reset, startUp, quiet, wake⟩ := u.partConsistent_iff.1 fits
  simp_all

theorem execQuietCountdownExpiry_keeps (s : State) : keepsNext s (execQuietCountdownExpiry s) := by
  refine onExpiry_keeps fun running n => ?_
  generalize hu : ({ s with time := n } : State) = u
  have counted : u.lkp.quietTimer.isSome = true := by rw [← hu]; exact running
  refine State.setPart_keeps (startUp := u.startUp) (quietTimer := none) (wakeTimer := u.lkp.wakeTimer) fun fits => ?_
  obtain ⟨reset, startUp, quiet, wake⟩ := u.partConsistent_iff.1 fits
  simp_all

theorem execWakeTimerExpiry_keeps (s : State) : keepsNext s (execWakeTimerExpiry s) := by
  refine onExpiry_keeps fun running n => (State.post_calm _ _).keeps.after ?_
  generalize hu : ({ s with time := n } : State) = u
  have woken : u.lkp.wakeTimer.isSome = true := by rw [← hu]; exact running
  refine State.setPart_keeps (startUp := u.startUp) (quietTimer := u.lkp.quietTimer) (wakeTimer := none) fun fits => ?_
  obtain ⟨reset, startUp, quiet, wake⟩ := u.partConsistent_iff.1 fits
  simp_all

theorem execSlotEvent_keeps (codes : Four Code) (s : State) : keepsNext s (execSlotEvent codes s) := by
  have converts {k : Nat} (t : State) :
      t.Calm (State.convertSlot k codes { t with rtb := { t.rtb with revolution := .scheduled (k + 1) } }) :=
    State.calm_of_frame (by simp)
  unfold execSlotEvent
  split
  · exact keepsNext_next (.refl s)
  · next k due _ =>
    refine keepsNext_next (State.Keeps.after ?_ (s.elapse_keeps (s.ahead due)))
    exact (converts (s.atInstant due)).keeps

theorem State.watchSag_keeps (s : State) : s.Keeps s.watchSag := by
  have watches (c : Csm) : s.Keeps { s with csm := c } := (State.calm_of_frame (by simp)).keeps
  unfold State.watchSag
  split
  · exact .refl s
  · exact watches _
  · split
    · exact (State.wakeSource_keeps _ _).after (watches _)
    · exact .refl s

theorem State.staticSample_keeps (codes : Four Code) (s : State) : s.Keeps (s.staticSample codes) := by
  have samples (c : Csm) : s.Keeps (State.recomputeSag { s with csm := c }) := (State.calm_of_frame (by simp)).keeps
  unfold State.staticSample
  dsimp only
  split
  · exact (State.watchSag_keeps _).after (samples _)
  · exact samples _

theorem execIndexOverdue_keeps (s : State) : keepsNext s (execIndexOverdue s) := by
  have stops (u : State) : u.Keeps { u with rtb := { u.rtb with overdue := none } } := (State.calm_of_frame (by simp)).keeps
  exact onExpiry_keeps_always (fun u => (State.findCause_keeps _ _).after (stops u)) _ s

theorem execGiveUpTimerExpiry_keeps (s : State) : keepsNext s (execGiveUpTimerExpiry s) := by
  unfold execGiveUpTimerExpiry
  split
  · exact onExpiry_keeps_always (fun u => (u.latchReady_calm _ _ _).keeps) _ s
  · exact keepsNext_next (.refl s)
  · exact keepsNext_next (.refl s)

theorem execDiscardTimerExpiry_keeps (s : State) : keepsNext s (execDiscardTimerExpiry s) := by
  unfold execDiscardTimerExpiry
  split
  · exact onExpiry_keeps_always (fun u => u.discardLatch_calm.keeps) _ s
  · exact keepsNext_next (.refl s)
  · exact keepsNext_next (.refl s)

theorem State.dwellTick_calm (s : State) : s.Calm s.dwellTick := by
  have ticks := s.updateActive_calm Plateau.tick
  unfold State.dwellTick
  dsimp only
  split
  · exact (State.planReport_calm _).after ((State.endActive_calm _ _).after ticks)
  · exact ticks.withSpm rfl rfl rfl

theorem State.openWindow_keeps (w : Window) (s : State) : s.Keeps (s.openWindow w) := by
  have ring (r : Ric) : s.Keeps { s with ric := r } := (State.calm_of_frame (by simp)).keeps
  unfold State.openWindow
  dsimp only
  split
  · split
    · exact (State.orderServing_keeps _).after (ring _)
    · exact ring _
  · exact ring _

theorem execOpenInstant_keeps (chamber : Fin 4) (s : State) : keepsNext s (execOpenInstant chamber s) := by
  unfold execOpenInstant
  split
  · exact keepsNext_next (.refl s)
  · exact keepsNext_next ((State.openWindow_keeps _ _).after (s.elapse_keeps _))

theorem execCloseInstant_keeps (s : State) : keepsNext s (execCloseInstant s) := by
  have closes (o : Opening) (u : State) : u.Keeps (u.closeOpening o) := (State.calm_of_frame (by simp)).keeps
  unfold execCloseInstant
  split
  · exact keepsNext_next (.refl s)
  · exact keepsNext_next ((closes _ _).after (s.elapse_keeps _))

/-- A pin's change goes to TMO's debounce timer alone, and in a reset to nothing (R151, R163). -/
theorem pinChange_keeps {s t : State} {v : Tmo} (pins : s.Calm t) (first : v.first = t.tmo.first)
    (causes : v.causes = t.tmo.causes) : keepsNext s (.next (if t.inReset then t else { t with tmo := v })) := by
  refine keepsNext_next ?_
  split
  · exact pins.keeps
  · exact ((State.calm_of_tmo first causes).after pins).keeps

theorem execStrikePinChange_keeps (after : Nat) (level : Bool) (s : State) :
    keepsNext s (execStrikePinChange after level s) :=
  pinChange_keeps (t := { s.elapse after with strikePin := level }) (State.calm_of_frame (by simp [State.elapse])) rfl rfl

theorem execLidlkPinChange_keeps (after : Nat) (level : Bool) (s : State) : keepsNext s (execLidlkPinChange after level s) :=
  pinChange_keeps (t := { s.elapse after with lidPin := level }) (State.calm_of_frame (by simp [State.elapse])) rfl rfl

/-- A frame with an owner that keeps the invariants at every frame. -/
theorem received_keeps_always {own : Owner} (keeps : own.keeps) (after : Nat) (f : Frame) (s : State) :
    keepsNext s (received after own f s) :=
  received_keeps (keeps.onTaken f) after s

theorem exec_keeps (c : Instr) (s : State) : keepsNext s (exec c s) := by
  cases c with
  | powerOn after reached => exact execPowerOn_keeps after reached s
  | resetNAsserted after reached => exact execResetNAsserted_keeps after reached s
  | resetNNegated after => exact execResetNNegated_keeps after s
  | resetTimerExpiry => exact execResetTimerExpiry_keeps s
  | endOfStartUp => exact execEndOfStartUp_keeps s
  | indexEdge after rising order => exact fromOutside_keeps (fun u => u.indexEdge_keeps rising order) after s
  | slotEvent codes => exact execSlotEvent_keeps codes s
  | restTimerExpiry order => exact onExpiry_keeps_always (fun u => u.standstill_keeps order) _ s
  | indexOverdue => exact execIndexOverdue_keeps s
  | staticTimerExpiry codes => exact onExpiry_keeps_always (fun u => u.staticSample_keeps codes) _ s
  | giveUpTimerExpiry => exact execGiveUpTimerExpiry_keeps s
  | discardTimerExpiry => exact execDiscardTimerExpiry_keeps s
  | dwellTick => exact onExpiry_keeps_always (fun u => u.dwellTick_calm.keeps) _ s
  | openInstant chamber => exact execOpenInstant_keeps chamber s
  | closeInstant => exact execCloseInstant_keeps s
  | bleedTick => exact onExpiry_keeps_always (fun u => (State.calm_of_frame (by simp)).keeps) _ s
  | unknownTimerExpiry => exact onExpiry_keeps_always (fun u => (State.calm_of_frame (by simp)).keeps) _ s
  | strikePinChange after level => exact execStrikePinChange_keeps after level s
  | strikeDebounceExpiry => exact onExpiry_keeps_always State.strikeSettles_keeps _ s
  | lidlkPinChange after level => exact execLidlkPinChange_keeps after level s
  | lidDebounceExpiry => exact onExpiry_keeps_always (fun u => u.lidSettles_calm.keeps) _ s
  | frameGapTimeout port => exact keepsNext_next (s.gapTimeout_keeps port)
  | answerSent after port => exact keepsNext_next ((State.answerSent_keeps port _).after (s.elapse_keeps after))
  | quietCountdownExpiry => exact execQuietCountdownExpiry_keeps s
  | wakeTimerExpiry => exact execWakeTimerExpiry_keeps s
  | programmingDone after => exact fromOutside_keeps State.programmingDone_keeps after s
  | lookupPlan after r => exact received_keeps_always ownLookupPlan_keeps after _ s
  | lookupPlateau after r => exact received_keeps_always ownLookupPlateau_keeps after _ s
  | lookupGrant after r => exact received_keeps_always ownLookupGrant_keeps after _ s
  | lookupEstimate after r => exact received_keeps_always ownLookupEstimate_keeps after _ s
  | lookupEstimateDelayed after r => exact received_keeps_always ownLookupEstimateDelayed_keeps after _ s
  | lookupLoad after r => exact received_keeps_always ownLookupLoad_keeps after _ s
  | lookupBand after r => exact received_keeps_always ownLookupBand_keeps after _ s
  | lookupChamber after r => exact received_keeps_always ownLookupChamber_keeps after _ s
  | lookupQueue after r => exact received_keeps_always ownLookupQueue_keeps after _ s
  | lookupStatus after r => exact received_keeps_always ownLookupStatus_keeps after _ s
  | lookupCal after r => exact received_keeps_always ownLookupCal_keeps after _ s
  | append after r => exact received_keeps_always ownAppend_keeps after _ s
  | amendPlateau after r => exact received_keeps_always ownAmendPlateau_keeps after _ s
  | amendLoad after r => exact received_keeps_always ownAmendLoad_keeps after _ s
  | withdraw after r => exact received_keeps_always ownWithdraw_keeps after _ s
  | retirePlateau after r => exact received_keeps_always ownRetirePlateau_keeps after _ s
  | retireBand after r => exact received_keeps_always ownRetireBand_keeps after _ s
  | declare after r => exact received_keeps_always ownDeclare_keeps after _ s
  | pin after r => exact received_keeps_always ownPin_keeps after _ s
  | inject after r => exact received_keeps_always ownInject_keeps after _ s
  | start after r => exact received_keeps_always ownStart_keeps after _ s
  | pause after r => exact received_keeps_always ownPause_keeps after _ s
  | resume after r => exact received_keeps_always ownResume_keeps after _ s
  | next after r => exact received_keeps_always ownNext_keeps after _ s
  | abort after r => exact received_keeps_always ownAbort_keeps after _ s
  | clear after r => exact received_keeps_always ownClear_keeps after _ s
  | guard after r => exact received_keeps_always ownGuard_keeps after _ s
  | flush after r => exact received_keeps_always ownFlush_keeps after _ s
  | cancel after r => exact received_keeps_always ownCancel_keeps after _ s
  | clearTrip after r => exact received_keeps_always ownClearTrip_keeps after _ s
  | quiet after r => exact received_keeps (ownQuiet_keepsTaken rfl) after s
  | reset after r => exact received_keeps_always ownReset_keeps after _ s
  | lock after r => exact received_keeps_always ownLock_keeps after _ s
  | calWrite after r => exact received_keeps (ownCalWrite_keepsTaken rfl) after s
  | keyVerify after r => exact received_keeps_always ownKeyVerify_keeps after _ s
  | characterReceived after port byte stopBit =>
    exact keepsNext_next ((State.takeCharacter_keeps port byte stopBit _).after (s.elapse_keeps after))

theorem step_keeps (s : State) : keepsNext s (step s) := by
  unfold step
  split
  · exact keepsNext_next (s.elapse_keeps 1)
  · next c rest _ =>
    have takes : s.Keeps { s with pending := rest } := (State.calm_of_frame (by simp)).keeps
    obtain ⟨t, runs, keeps⟩ := exec_keeps c { s with pending := rest }
    exact ⟨t, runs, keeps.after takes⟩

/-- Settles O56: the command that the step takes keeps each of the five invariants for itself (`step_keeps`). -/
theorem stepKeepsImageCausesAndPart : Obligations.StepKeepsImageCausesAndPart := by
  intro s t runs
  obtain ⟨u, next, keeps⟩ := step_keeps s
  obtain rfl : u = t := Host.Outcome.next.inj (next.symm.trans runs)
  exact ⟨keeps.image, keeps.causes, keeps.part, keeps.update, keeps.store⟩

end Sys2Proof.Machine
end

section
/-! The state after reset (O55), the timers of the latch (O15) and the smoothing (O54). -/

namespace Sys2Proof.Machine

/-! ### The state after reset -/

/-- Settles O55, by evaluation; the ceiling in force is the one that stages A to D give (`State.ceilingFits_now`). -/
theorem resetStateKeepsTheInvariants : Obligations.ResetStateKeepsTheInvariants := by
  have flags : State.reset.imageCurrent = true ∧ State.reset.causesConsistent = true ∧ State.reset.partConsistent = true ∧
      State.reset.ringSafe = true ∧ State.reset.planConsistent = true ∧ State.reset.planCurrent = true ∧
      State.reset.bandsSafe = true ∧ State.reset.grantSafe = true ∧ State.reset.updateCurrent = true ∧
      State.reset.cls.storeFits = true := by decide +kernel
  have ceiling : State.reset.ceilingNow = State.reset.spm.ceiling := by decide +kernel
  obtain ⟨image, causes, part, ring, plan, current, bands, grant, update, store⟩ := flags
  exact ⟨image, causes, part, ring, plan, current, bands, grant, update, store, Or.inl rfl,
    Or.inr (ceiling ▸ State.reset.ceilingFits_now)⟩

/-! ### The timers of the latch -/

theorem State.postFor_notices (p : Port) (n : Notice) (s : State) : s.postFor p n = { s with
    lkp := { s.lkp with notices := if p = .cycle then s.lkp.notices.add n else s.lkp.notices } } := by
  cases p <;> rfl

/-- Settles O15: each timer's running out is the operation of its latch (`onExpiry_runs`). -/
theorem latchTimersRunOut : Obligations.LatchTimersRunOut := by
  intro k p e res τ s outside
  refine ⟨fun latch => ?_, fun latch => ?_⟩
  · change execGiveUpTimerExpiry s = _
    unfold execGiveUpTimerExpiry
    rw [latch]
    dsimp only
    rw [onExpiry_runs rfl outside, State.latchReady, State.postFor_notices]
    rfl
  · change execDiscardTimerExpiry s = _
    unfold execDiscardTimerExpiry
    rw [latch]
    dsimp only
    rw [onExpiry_runs rfl outside, State.discardLatch, latch]
    dsimp only
    rw [State.postFor_notices]

/-! ### The smoothing -/

/-- A rounded quarter is within half a unit, and a tie is rounded away from zero (R42). -/
theorem roundDiv_quarter (d : Int) :
    |4 * roundDiv d 4 - d| ≤ 2 ∧ (|4 * roundDiv d 4 - d| = 2 → |d| < 4 * |roundDiv d 4|) := by
  obtain ⟨near, tie⟩ := isRounded_roundDiv d 4 (by decide)
  rw [abs_sub_comm, Nat.cast_ofNat] at near tie
  exact ⟨by omega, fun half => tie (by omega)⟩

theorem smoothStep_test (old o : Vec) : smoothStep .test old o = o := rfl

theorem smoothStep_quarter {g : GuardLevel} (quarters : g ≠ .test) (old o : Vec) :
    smoothStep g old o = ⟨old.x + roundDiv (o.x - old.x) 4, old.y + roundDiv (o.y - old.y) 4⟩ := by
  cases g with
  | test => exact absurd rfl quarters
  | _ => rfl

/-- Equal masses agree (R45). -/
theorem agrees_self (u : Nat) : agrees u u = true := by simp [agrees, within]

/-- Of the estimate, a latch test changes the latch alone. -/
theorem State.testLatch_ibe (s : State) : s.testLatch.ibe = { s.ibe with latch := s.testLatch.ibe.latch } := by
  have posted (p : Port) (n : Notice) (u : State) : (u.postFor p n).ibe = u.ibe := by cases p <;> rfl
  unfold State.testLatch
  split
  · split
    · simp only [State.latchReady, posted]
    · rfl
  · rfl
  · rfl

theorem State.ordersTaken_ibe (s : State) :
    s.ordersTaken.ibe = { s.ibe with ringQuiet := 0, latch := s.ordersTaken.ibe.latch } :=
  State.testLatch_ibe _

/-- Of the estimate, an automatic posting changes the ring-quiet count and the latch alone (R52). -/
theorem State.autoPost_ibe (s : State) :
    s.autoPost.ibe = { s.ibe with ringQuiet := s.autoPost.ibe.ringQuiet, latch := s.autoPost.ibe.latch } := by
  unfold State.autoPost
  split
  · dsimp only
    split
    · rfl
    · split
      · rw [State.ordersTaken_ibe]
        simp
      · simp
  · rfl

/-- An update outside a completion keeps the vectors (R51). -/
theorem State.giveUpdate_vectors (s : State) :
    s.giveUpdate.ibe.smooth = s.ibe.smooth ∧ s.giveUpdate.ibe.orbit = s.ibe.orbit := by
  change s.testLatch.autoPost.ibe.smooth = _ ∧ s.testLatch.autoPost.ibe.orbit = _
  rw [State.autoPost_ibe, State.testLatch_ibe]
  exact ⟨rfl, rfl⟩

theorem State.changeGuard_vectors (g : GuardLevel) (s : State) :
    (s.changeGuard g).ibe.smooth = s.ibe.smooth ∧ (s.changeGuard g).ibe.orbit = s.ibe.orbit := by
  unfold State.changeGuard
  split
  · exact ⟨rfl, rfl⟩
  · dsimp only
    split
    · simp
    · simp [State.giveUpdate_vectors]

/-- Settles O54: the branches of the smoothing, with the rounding of a quarter (`roundDiv_quarter`). -/
theorem smoothingMovesAQuarter : Obligations.SmoothingMovesAQuarter := by
  intro c s
  refine ⟨fun old smooth goes quarters => ?_, fun restarts => ?_, fun test => ?_, fun g => s.changeGuard_vectors g⟩
  · refine ⟨_, _, ?_, roundDiv_quarter _, roundDiv_quarter _⟩
    simp only [State.validRevolution, goes, Bool.false_eq_true, if_false, smooth, Option.getD_some,
      smoothStep_quarter quarters]
  · simp only [State.validRevolution, restarts, if_true]
  · have moved : (if s.ibe.restarts c.speed then c.meanOrbit
        else smoothStep s.spm.guard (s.ibe.smooth.getD c.meanOrbit) c.meanOrbit) = c.meanOrbit := by
      rw [test, smoothStep_test, ite_self]
    simp only [State.validRevolution, moved, Option.isSome_some, true_and]
    intro unmarked
    simp [State.settled, test, GuardLevel.threshold, unmarked, agrees_self]

end Sys2Proof.Machine
end

section
/-! The record lookups (O29) and the delayed lookup at its latch (O33). -/

namespace Sys2Proof.Machine

/-- The estimate's record is nothing of the ports and the time. -/
theorem State.taking_estimateRecord (after : Nat) (p : Port) (s : State) :
    (s.taking after p).estimateRecord = s.estimateRecord := by
  cases p <;> rfl

theorem State.taking_conditionOf (after : Nat) (p : Port) (k : DelayedKey) (s : State) :
    (s.taking after p).conditionOf k = s.conditionOf k := by
  cases p <;> rfl

/-- LOOKUP of ESTIMATE, delayed or not, comes to its owner on both ports (R54, R169). -/
theorem received_estimate {r : Request} {s : State} (bare : r.params = []) (ready : s.ready r.port r.addr) (after : Nat)
    (own : Owner) : received after own (frameOf 1#8 4#8 r) s =
      .next (State.finish (frameOf 1#8 4#8 r) (own (frameOf 1#8 4#8 r) (s.taking after r.port))) :=
  received_ready ready after own _ rfl rfl (formOk_lookup bare 4#8 (by decide)) fun _ => rfl

/-! ### Record lookups -/

/-- Settles O29: each record is that of the part as the request finds it, which differs from the part before in time and port
alone. -/
theorem recordLookupsAnswerTheRecord : Obligations.RecordLookupsAnswerTheRecord := by
  intro after r s
  have lookups (cls : Byte) (known : (⟨1#8, cls, none, [0]⟩ : Form) ∈ forms) (takes : s.takes 0 r) (own : Owner) :=
    received_takes takes after own 1#8 cls [0] known (by decide)
  refine ⟨fun takes => ⟨?_, ?_, fun key => ?_⟩, fun bare ready => ⟨fun key => ?_, fun key => ?_⟩⟩
  · exact (lookups 1#8 (by decide) takes ownLookupPlan).trans (finish_justAnswers after _ takes.1 .done _)
  · exact (lookups 8#8 (by decide) takes ownLookupLoad).trans (finish_justAnswers after _ takes.1 .done _)
  · refine (lookups 10#8 (by decide) takes ownLookupCal).trans ?_
    rw [ownLookupCal, if_pos (show (frameOf 1#8 10#8 r).key = 0#16 from key)]
    exact finish_justAnswers after _ takes.1 .done _
  · refine (received_estimate bare ready after ownLookupEstimate).trans ?_
    rw [ownLookupEstimate, if_pos (show (frameOf 1#8 4#8 r).key = 0#16 from key), State.taking_estimateRecord]
    rfl
  · have named : (frameOf 1#8 4#8 r).key ≠ 0#16 := fun zero => by
      rw [show r.key = 0#16 from zero] at key
      exact absurd key (by decide)
    refine (received_estimate bare ready after ownLookupEstimate).trans ?_
    rw [ownLookupEstimate, if_neg named]
    rfl

/-! ### The delayed lookup -/

theorem giveUpTime_eq : giveUpTime = 30000000 := rfl

theorem State.conditionOf_delayedKey (w : Word) (s : State) :
    s.conditionOf (delayedKeyOf w) = if w = 2#16 then s.ringSettled else s.settled := by
  unfold delayedKeyOf
  split <;> rfl

/-- A delayed lookup at a latch that its key and port do not hold goes by the rest of Table 3-5. -/
theorem ownLookupEstimateDelayed_other {f : Frame} {s : State}
    (other : s.ibe.latch.heldBy (delayedKeyOf f.key) f.port = false) :
    ownLookupEstimateDelayed f s = s.delayedLookup (delayedKeyOf f.key) f.port := by
  simp only [ownLookupEstimateDelayed, other, Bool.false_eq_true, if_false]

theorem ownLookupEstimateDelayed_ready {f : Frame} {s : State} {e : EstimateRecord} {res : SnapshotResult} {τ : Nat}
    (latch : s.ibe.latch = .ready (delayedKeyOf f.key) f.port e res τ) :
    ownLookupEstimateDelayed f s =
      State.answerWith { s with ibe := { s.ibe with latch := .free } } .done (e.words (some res)) := by
  simp [ownLookupEstimateDelayed, latch, Latch.heldBy]

theorem ownLookupEstimateDelayed_waiting {f : Frame} {s : State} {τ : Nat}
    (latch : s.ibe.latch = .waiting (delayedKeyOf f.key) f.port τ) :
    ownLookupEstimateDelayed f s = s.answer .pending := by
  simp [ownLookupEstimateDelayed, latch, Latch.heldBy]

theorem State.delayedLookup_met {k : DelayedKey} {s : State} (holds : s.conditionOf k = true) (p : Port) :
    s.delayedLookup k p = s.answerWith .done (s.estimateRecord.words (some .met)) := by
  rw [State.delayedLookup, if_pos holds]

theorem State.delayedLookup_free {k : DelayedKey} {s : State} (holds : s.conditionOf k = false)
    (latch : s.ibe.latch = .free) (p : Port) : s.delayedLookup k p = State.answer
      { s with ibe := { s.ibe with latch := .waiting k p (s.time + giveUpTime) } } .pending := by
  rw [State.delayedLookup, if_neg (Bool.eq_false_iff.1 holds), latch]

theorem State.delayedLookup_held {k : DelayedKey} {s : State} (holds : s.conditionOf k = false)
    (held : s.ibe.latch ≠ .free) (p : Port) : s.delayedLookup k p = s.answer .busy := by
  rw [State.delayedLookup, if_neg (Bool.eq_false_iff.1 holds)]
  cases latch : s.ibe.latch with
  | free => exact absurd latch held
  | waiting key port giveUp => rfl
  | ready key port snapshot result discard => rfl

/-- Settles O33, by the lines of Table 3-5. -/
theorem delayedLookupMeetsTheLatch : Obligations.DelayedLookupMeetsTheLatch := by
  intro after r s bare ready key
  have asks := received_estimate bare ready after ownLookupEstimateDelayed
  have record := s.taking_estimateRecord after r.port
  have condition := (s.taking_conditionOf after r.port (delayedKeyOf r.key)).trans (s.conditionOf_delayedKey r.key)
  obtain ⟨-, -, -, -, ibe, -, -, -, -, -, -, -, -, time⟩ := s.taking_frame after r.port
  generalize s.taking after r.port = u at asks record condition ibe time ⊢
  rw [← ibe, ← record]
  have others (other : u.ibe.latch.heldBy (delayedKeyOf r.key) r.port = false) :
      ownLookupEstimateDelayed (frameOf 1#8 4#8 r) u = u.delayedLookup (delayedKeyOf r.key) r.port :=
    ownLookupEstimateDelayed_other other
  refine ⟨fun e res τ latch => asks.trans ?_, fun τ latch => asks.trans ?_, fun other holds => asks.trans ?_,
    fun latch holds => asks.trans ?_, fun held other holds => asks.trans ?_⟩
  · rw [ownLookupEstimateDelayed_ready latch]
    rfl
  · rw [ownLookupEstimateDelayed_waiting latch]
    rfl
  · rw [others other, State.delayedLookup_met (condition.trans holds)]
    rfl
  · rw [others (by rw [latch]; rfl), State.delayedLookup_free (condition.trans holds) latch, time, giveUpTime_eq]
    rfl
  · rw [others other, State.delayedLookup_held (condition.trans holds) held]
    rfl

end Sys2Proof.Machine
end

section
/-! An update of an estimate that is not SETTLED, and the open instant (O17). -/

namespace Sys2Proof.Machine

/-! ### An update of an estimate that is not SETTLED -/

theorem State.conditionOf_unsettled {s : State} (unsettled : s.settled = false) (k : DelayedKey) :
    s.conditionOf k = false := by
  cases k with
  | settled => exact unsettled
  | ringSettled => simp [State.conditionOf, State.ringSettled, unsettled]

theorem State.testLatch_unsettled {s : State} (unsettled : s.settled = false) : s.testLatch = s := by
  unfold State.testLatch
  split
  · rw [if_neg (Bool.eq_false_iff.1 (State.conditionOf_unsettled unsettled _))]
  · rfl
  · rfl

theorem State.autoPost_unsettled {s : State} (unsettled : s.settled = false) : s.autoPost = s := by
  have waits : s.mayPost = false := by simp [State.mayPost, unsettled]
  rw [State.autoPost, if_neg (Bool.eq_false_iff.1 waits)]

/-- No lookup waits for such an update and no order comes of it: SPM takes it, and that is all (R51, R56, R134). -/
theorem State.giveUpdate_unsettled {s : State} (unsettled : s.settled = false) : s.giveUpdate = s.takeUpdate := by
  rw [State.giveUpdate, State.testLatch_unsettled unsettled, State.autoPost_unsettled unsettled]

theorem State.takeUpdate_planOp (s : State) : s.PlanOp s.takeUpdate :=
  ⟨rfl, Or.inl rfl, rfl, rfl, rfl, rfl, rfl, rfl, rfl, fun _ h => h⟩

theorem State.handUpdate_planOp {s : State} (unsettled : s.settled = false) : s.PlanOp s.handUpdate := by
  rw [State.handUpdate, State.giveUpdate_unsettled unsettled]
  exact (s.takeUpdate_planOp.trans (State.ceilingAndGrant_planOp _)).trans (State.planReport_planOp _)

theorem State.handUpdate_ibe {s : State} (unsettled : s.settled = false) : s.handUpdate.ibe = s.ibe := by
  rw [State.handUpdate, State.giveUpdate_unsettled unsettled]
  simp

/-- A ring whose frozen flag is right takes nothing of it. -/
theorem State.handUpdate_ric {s : State} (unsettled : s.settled = false) (right : s.ric.frozen = s.freezeCondition) :
    s.handUpdate.ric = s.ric := by
  have keeps : s.takeUpdate.ceilingAndGrant.freezeCondition = s.freezeCondition :=
    (s.takeUpdate_planOp.trans (State.ceilingAndGrant_planOp _)).freezeCondition (by simp) (by simp) (by simp)
  rw [State.handUpdate, State.giveUpdate_unsettled unsettled, State.planReport_ric (by simpa [keeps] using right)]
  simp

/-! ### The open instant -/

/-- The head's first opening restarts the settling and leaves a ring whose frozen flag is right (R46). -/
theorem State.orderServing_restarts {s : State} (right : s.ric.frozen = s.freezeCondition) :
    s.orderServing.ric = s.ric ∧ s.orderServing.ibe = { s.ibe with injectionMark := true, settle := 0 } ∧
      s.PlanOp s.orderServing := by
  have unsettled : State.settled { s with ibe := { s.ibe with injectionMark := true, settle := 0 } } = false :=
    State.settled_zero rfl
  have marked : s.PlanOp { s with ibe := { s.ibe with injectionMark := true, settle := 0 } } :=
    State.planOp_of_ring rfl rfl
  unfold State.orderServing
  dsimp only
  split
  · exact ⟨State.handUpdate_ric unsettled right, State.handUpdate_ibe unsettled,
      marked.trans (State.handUpdate_planOp unsettled)⟩
  · exact ⟨rfl, rfl, marked⟩

theorem openingFor_eq (flow : Nat) (w : Window) (o : Order) :
    openingFor flow w o =
      if (o.requested * 1000 - o.delivered) * 1000 / flow < w.length then
        ⟨w.chamber, w.opens, (o.requested * 1000 - o.delivered) * 1000 / flow, .early, o.requested * 1000 - o.delivered,
          flow⟩
      else ⟨w.chamber, w.opens, w.length, .full, min w.full (o.requested * 1000 - o.delivered), flow⟩ := rfl

theorem Ric.openFor_head {r : Ric} {o : Order} {rest : List Order} (queue : r.queue = o :: rest) (flow : Nat) (w : Window)
    (j : Fin 4) : (r.dropWindow j).openFor flow w = { r with
      windows := r.windows.filter (fun v => v.chamber ≠ j), queue := { o with state := .serving } :: rest,
      opening := some (openingFor flow w o) } := by
  simp only [Ric.openFor, Ric.dropWindow, queue]

theorem State.flow_waits (n : Nat) (s : State) : State.flow { s with time := n } = s.flow := rfl

theorem State.openWindow_passes {w : Window} {s : State} (passes : s.ric.serves w = false) :
    s.openWindow w = { s with ric := s.ric.dropWindow w.chamber } := by
  simp [State.openWindow, passes]

theorem State.openWindow_serves {w : Window} {s : State} (serves : s.ric.serves w = true)
    (serving : s.ric.headWaits = false) :
    s.openWindow w = { s with ric := (s.ric.dropWindow w.chamber).openFor s.flow w } := by
  simp [State.openWindow, serves, serving]

theorem State.openWindow_begins {w : Window} {s : State} (serves : s.ric.serves w = true)
    (waits : s.ric.headWaits = true) :
    s.openWindow w = State.orderServing { s with ric := (s.ric.dropWindow w.chamber).openFor s.flow w } := by
  simp [State.openWindow, serves, waits]

/-- Settles O17: the window passes, opens for a SERVING head, or opens for one that begins to be served. -/
theorem openInstantServesTheHead : Obligations.OpenInstantServesTheHead := by
  intro j w s found
  obtain rfl : w.chamber = j := by simpa using List.find?_some found
  have runs : exec (.openInstant w.chamber) s = .next (State.openWindow w { s with time := s.time + s.ahead w.opens }) := by
    change execOpenInstant w.chamber s = _
    simp only [execOpenInstant, found, State.atInstant, State.elapse]
  generalize s.ahead w.opens = waits at runs ⊢
  refine ⟨fun closed => ?_, fun o rest thawed shut queue mine => ⟨fun serving => ?_, fun waiting early late flows => ?_⟩⟩
  · have passes : s.ric.serves w = false := by
      rcases closed with frozen | opening | empty | ⟨o, rest, queue, elsewhere | ⟨waiting, bound⟩⟩
      · simp [Ric.serves, frozen]
      · simp [Ric.serves, Option.isNone_iff_eq_none, opening]
      · simp [Ric.serves, empty]
      · simp [Ric.serves, queue, elsewhere]
      · have before : w.afterBound s.ric.bound = false := by
          simp only [Window.afterBound, Bool.and_eq_false_iff, decide_eq_false_iff_not]
          omega
        simp [Ric.serves, queue, waiting, before]
    rw [runs, State.openWindow_passes (s := { s with time := s.time + waits }) passes]
    rfl
  · have serves : s.ric.serves w = true := by simp [Ric.serves, thawed, shut, queue, mine, serving]
    have headServes : s.ric.headWaits = false := by simp [Ric.headWaits, queue, serving]
    rw [runs, State.openWindow_serves (s := { s with time := s.time + waits }) serves headServes, State.flow_waits,
      Ric.openFor_head queue, openingFor_eq]
  · have after : w.afterBound s.ric.bound = true := by simp [Window.afterBound, early, late]
    have serves : s.ric.serves w = true := by simp [Ric.serves, thawed, shut, queue, mine, after]
    have headWaits : s.ric.headWaits = true := by simp [Ric.headWaits, queue, waiting]
    rw [runs, State.openWindow_begins (s := { s with time := s.time + waits }) serves headWaits,
      State.flow_waits,
      Ric.openFor_head queue, openingFor_eq]
    generalize hu : ({ s with time := s.time + waits, ric := _ } : State) = u
    have right : u.ric.frozen = u.freezeCondition := by
      have reads : u.freezeCondition = s.freezeCondition := by
        rw [← hu]
        exact State.freezeCondition_congr rfl rfl rfl rfl Iff.rfl
      rw [reads, flows, ← hu]
      exact thawed
    obtain ⟨ric, ibe, keeps⟩ := State.orderServing_restarts right
    obtain ⟨time, rst, startUp, strikePin, lidPin, rtb, csm, tmo, cls, pending⟩ := u.orderServing_frame
    have plan (idle : s.spm.plan ≠ .running) : u.orderServing.spm.plan = s.spm.plan := by
      subst hu
      exact keeps.plan.resolve_right fun rebalances => idle rebalances.1
    refine ⟨_, rfl, ?_, ?_, ?_, ?_, ?_, ?_, ?_, ?_, plan⟩
    · rw [time, ← hu]
    · rw [ric, ← hu]
    · rw [State.valveLine, ric, ← hu]
      rfl
    · rw [ibe]
    · rw [ibe]
    · rw [ibe, ← hu]
    · rw [State.sameSensing, rtb, csm, tmo, cls, strikePin, lidPin, rst, startUp, pending, ← hu]
      exact ⟨rfl, rfl, rfl, rfl, rfl, rfl, rfl, rfl, rfl⟩
    · rw [keeps.part, ← hu]

end Sys2Proof.Machine
end

section
/-! What a derivation and a report leave of a plan that does not run, and AMEND of the load class (O43). -/

namespace Sys2Proof.Machine

/-! ### A plan that does not run, with its ceiling -/

/-- What the ceiling is computed from (R77 to R83). -/
theorem State.ceilingNow_congr {s t : State} (update : t.spm.update = s.spm.update) (guard : t.spm.guard = s.spm.guard)
    (rtb : t.rtb = s.rtb) (bands : t.rbt.bands = s.rbt.bands) (cls : t.cls = s.cls) : t.ceilingNow = s.ceilingNow := by
  unfold State.ceilingNow State.kf State.guardFactor State.rpm State.lcross State.smax State.sdist
  rw [update, guard, rtb, bands, cls]

/-- Plan state, records, ceiling, guard level and estimate update are as before. -/
structure State.SamePlan (s t : State) : Prop where
  plan : t.spm.plan = s.spm.plan
  plateaus : t.spm.plateaus = s.spm.plateaus
  ceiling : t.spm.ceiling = s.spm.ceiling
  guard : t.spm.guard = s.spm.guard
  update : t.spm.update = s.spm.update

theorem State.SamePlan.trans {s t u : State} (h : s.SamePlan t) (k : t.SamePlan u) : s.SamePlan u :=
  ⟨k.plan.trans h.plan, k.plateaus.trans h.plateaus, k.ceiling.trans h.ceiling, k.guard.trans h.guard,
    k.update.trans h.update⟩

theorem State.samePlan_of_spm {s t : State} (h : t.spm = s.spm) : s.SamePlan t := by constructor <;> rw [h]

/-- An evaluation of the grant moves no record of a plan that does not run (R117, R119). -/
theorem State.refreshGrant_samePlan {s : State} (idle : s.spm.plan ≠ .running) : s.SamePlan s.refreshGrant := by
  have puts (g : GrantRecord) : s.SamePlan (s.putGrant g) := by
    unfold State.putGrant
    split <;> constructor <;> rfl
  have moves (n : Nat) (u : State) : u.SamePlan (u.speedChanged n) := by
    unfold State.speedChanged
    split <;> constructor <;> rfl
  have stays {u : State} (plan : u.spm.plan ≠ .running) : u.arriveAtZero = u := by
    simp [State.arriveAtZero, plan]
  have shown := (puts (s.grantRecord s.spm.grant.speed)).trans (moves s.spm.grant.speed _)
  rw [State.refreshGrant, State.evaluateGrant, stays (shown.plan ▸ idle)]
  exact shown.trans ⟨rfl, rfl, rfl, rfl, rfl⟩

/-- Plan state, records, guard level and update are as before, and the ceiling is that of the inputs in force. -/
structure State.Reckoned (s t : State) : Prop where
  plan : t.spm.plan = s.spm.plan
  plateaus : t.spm.plateaus = s.spm.plateaus
  guard : t.spm.guard = s.spm.guard
  update : t.spm.update = s.spm.update
  ceiling : t.spm.ceiling = t.ceilingNow

theorem State.Reckoned.after {s t u : State} (k : t.Reckoned u) (h : s.SamePlan t) : s.Reckoned u :=
  ⟨k.plan.trans h.plan, k.plateaus.trans h.plateaus, k.guard.trans h.guard, k.update.trans h.update, k.ceiling⟩

theorem State.ceilingAndGrant_reckoned {s : State} (idle : s.spm.plan ≠ .running) : s.Reckoned s.ceilingAndGrant := by
  have same : s.computeCeiling.SamePlan s.ceilingAndGrant := by
    rw [State.ceilingAndGrant, State.derive_idle (s := s.computeCeiling) .held idle]
    exact State.refreshGrant_samePlan (s := s.computeCeiling) idle
  have now : s.ceilingAndGrant.ceilingNow = s.ceilingNow :=
    State.ceilingNow_congr same.update same.guard (by simp) (by simp) (by simp)
  exact ⟨same.plan, same.plateaus, same.guard, same.update, same.ceiling.trans now.symm⟩

theorem State.closeSpan_reckoned {s : State} (idle : s.spm.plan ≠ .running) (current : s.spm.ceiling = s.ceilingNow) :
    s.Reckoned s.closeSpan := by
  have placed {u : State} (spm : u.spm = s.spm) : s.Reckoned u.ceilingAndGrant :=
    (State.ceilingAndGrant_reckoned (by rw [spm]; exact idle)).after (State.samePlan_of_spm spm)
  unfold State.closeSpan
  split
  · exact ⟨rfl, rfl, rfl, rfl, current⟩
  · have closed : s.Reckoned { s with rbt := { s.rbt with span := none } } :=
      ⟨rfl, rfl, rfl, rfl, current.trans (State.ceilingNow_congr rfl rfl rfl rfl rfl).symm⟩
    dsimp only
    split
    · exact closed
    · split
      · exact ⟨rfl, rfl, rfl, rfl, current.trans (State.ceilingNow_congr rfl rfl rfl rfl rfl).symm⟩
      all_goals exact placed rfl

theorem State.planReport_reckoned {s : State} (idle : s.spm.plan ≠ .running) (current : s.spm.ceiling = s.ceilingNow) :
    s.Reckoned s.planReport := by
  have refreezes {u : State} (h : s.Reckoned u) : s.Reckoned u.refreeze := by
    obtain ⟨plan, plateaus, guard, update, ceiling⟩ := h
    have now : u.refreeze.ceilingNow = u.ceilingNow :=
      State.ceilingNow_congr (by simp) (by simp) (by simp) (by simp) (by simp)
    exact ⟨by simpa using plan, by simpa using plateaus, by simpa using guard, by simpa using update,
      by simpa [now] using ceiling⟩
  unfold State.planReport
  split
  · exact refreezes ⟨rfl, rfl, rfl, rfl, current⟩
  · exact refreezes (State.closeSpan_reckoned idle current)

/-- An update of an estimate that is not SETTLED leaves a plan that does not run, with a new ceiling (R85). -/
theorem State.handUpdate_idle {s : State} (unsettled : s.settled = false) (idle : s.spm.plan ≠ .running) :
    s.handUpdate.spm.plan = s.spm.plan ∧ s.handUpdate.spm.plateaus = s.spm.plateaus ∧
      s.handUpdate.spm.guard = s.spm.guard ∧ s.handUpdate.spm.ceiling = s.handUpdate.ceilingNow := by
  rw [State.handUpdate, State.giveUpdate_unsettled unsettled]
  have computed := State.ceilingAndGrant_reckoned (s := s.takeUpdate) idle
  have told := State.planReport_reckoned (fun running => idle (computed.plan.symm.trans running)) computed.ceiling
  exact ⟨told.plan.trans computed.plan, told.plateaus.trans computed.plateaus, told.guard.trans computed.guard,
    told.ceiling⟩

/-- With no span open the band table takes nothing of it (R68). -/
theorem State.handUpdate_rbt {s : State} (unsettled : s.settled = false) (closed : s.rbt.span = none) :
    s.handUpdate.rbt = s.rbt := by
  rw [State.handUpdate, State.giveUpdate_unsettled unsettled, State.planReport_rbt (by simpa using closed)]
  simp

/-! ### AMEND of LOAD -/

/-- The value that asks for a load source: a class by its number, or AUTO (R35). -/
def asksSource (value : Word) (source : Option (Fin 4)) : Prop :=
  (∃ k : Fin 4, value.toNat = k.val ∧ source = some k) ∨ (value = 0x100#16 ∧ source = none)

theorem loadSourceOf_asked {value : Word} {source : Option (Fin 4)} (asked : asksSource value source) :
    loadSourceOf value.toNat = some source := by
  rcases asked with ⟨k, named, rfl⟩ | ⟨rfl, rfl⟩
  · simp [loadSourceOf, named]
  · rfl

theorem loadSourceOf_none {value : Word} (high : 3 < value.toNat) (auto : value ≠ 0x100#16) :
    loadSourceOf value.toNat = none := by
  have other : value.toNat ≠ 0x100 := fun same => auto (BitVec.eq_of_toNat_eq same)
  rw [loadSourceOf, dif_neg (by omega), if_neg other]

theorem Ibe.withSource_eq (source : Option (Fin 4)) (b : Ibe) : b.withSource source = { b with
    declared := source, latched := if source.isSome then b.latched else none,
    sagAbsent := source.isSome && b.sagAbsent } := by
  cases source <;> rfl

/-- The table class that a load source gives (R34). -/
theorem State.tableClass_withSource (source : Option (Fin 4)) (s : State) :
    State.tableClass { s with ibe := s.ibe.withSource source } = source.getD 2 := by
  cases source <;> rfl

theorem State.amendLoad_same {source : Option (Fin 4)} {s : State} (same : source.getD 2 = s.tableClass) :
    s.amendLoad source = { s with ibe := s.ibe.withSource source } := by
  rw [State.amendLoad]
  exact if_pos ((s.tableClass_withSource source).trans same)

theorem State.amendLoad_other {source : Option (Fin 4)} {s : State} (other : source.getD 2 ≠ s.tableClass) :
    s.amendLoad source =
      (State.restartSmoothing { s with ibe := s.ibe.withSource source }).handUpdate := by
  rw [State.amendLoad]
  exact if_neg fun same => other ((s.tableClass_withSource source).symm.trans same)

/-- A new table class: the smoothing restarts, and the ceiling is computed anew for the update (R34, R35, R85). -/
theorem State.amendLoad_restarts {source : Option (Fin 4)} {s : State} (other : source.getD 2 ≠ s.tableClass)
    (idle : s.spm.plan.underway = false) :
    (s.amendLoad source).ibe = { s.ibe.withSource source with restartPending := true, settle := 0 } ∧
    (s.amendLoad source).spm.plan = s.spm.plan ∧ (s.amendLoad source).spm.plateaus = s.spm.plateaus ∧
    (s.amendLoad source).spm.guard = s.spm.guard ∧
    (s.amendLoad source).spm.ceiling = (s.amendLoad source).ceilingNow ∧
    s.sameSensing (s.amendLoad source) ∧
    (s.ric.frozen = s.freezeCondition → (s.amendLoad source).ric = s.ric) ∧
    (s.rbt.span = none → (s.amendLoad source).rbt = s.rbt) := by
  have stopped : s.spm.plan ≠ .running := fun running => by simp [running, PlanState.underway] at idle
  rw [State.amendLoad_other other]
  generalize hu : State.restartSmoothing { s with ibe := s.ibe.withSource source } = u
  have unsettled : u.settled = false := by
    rw [← hu]
    exact State.settled_zero rfl
  obtain ⟨plan, plateaus, guard, ceiling⟩ := State.handUpdate_idle unsettled (by rw [← hu]; exact stopped)
  refine ⟨?_, ?_, ?_, ?_, ceiling, ?_, fun right => ?_, fun closed => ?_⟩
  · rw [State.handUpdate_ibe unsettled, ← hu]
    rfl
  · rw [plan, ← hu]
    rfl
  · rw [plateaus, ← hu]
    rfl
  · rw [guard, ← hu]
    rfl
  · obtain ⟨-, rst, startUp, strikePin, lidPin, rtb, csm, tmo, cls, pending⟩ := u.handUpdate_frame
    rw [State.sameSensing, rtb, csm, tmo, cls, strikePin, lidPin, rst, startUp, pending, ← hu]
    exact ⟨rfl, rfl, rfl, rfl, rfl, rfl, rfl, rfl, rfl⟩
  · have reads : u.freezeCondition = s.freezeCondition := by
      rw [← hu]
      exact State.freezeCondition_congr rfl rfl rfl rfl Iff.rfl
    have ring : u.ric = s.ric := by rw [← hu]; rfl
    rw [State.handUpdate_ric unsettled (by rw [reads, ring]; exact right), ring]
  · have bands : u.rbt = s.rbt := by rw [← hu]; rfl
    rw [State.handUpdate_rbt unsettled (by rw [bands]; exact closed), bands]

theorem State.freezeCondition_taking (after : Nat) (p : Port) (s : State) :
    (s.taking after p).freezeCondition = s.freezeCondition := by
  obtain ⟨-, -, rtb, -, -, -, spm, -, tmo, cls, -⟩ := s.taking_frame after p
  exact State.freezeCondition_congr rtb tmo cls (by simp [State.taking]) (by rw [spm])

theorem State.ringSafe_frozen {s : State} (safe : s.ringSafe = true) : s.ric.frozen = s.freezeCondition := by
  simp only [State.ringSafe, Bool.and_eq_true, decide_eq_true_eq] at safe
  exact safe.1.1

/-- A request on the cycle port that its owner answers with no record. -/
theorem finish_replying {f : Frame} (port : f.port = .cycle) (s : State) (o : Outcome) :
    State.finish f (s.answer o) = s.replying .cycle f.caller ⟨o, []⟩ := by
  rw [State.answer, State.finish_answer, port]

/-- Settles O43, by the tests of R35 and the two cases of the table class. -/
theorem amendLoadDeclaresTheClass : Obligations.AmendLoadDeclaresTheClass := by
  intro after value r s takes params
  have asks : exec (.amendLoad after r) s =
      .next (State.finish (frameOf 3#8 8#8 r) (ownAmendLoad (frameOf 3#8 8#8 r) (s.taking after .cycle))) :=
    received_takes takes after ownAmendLoad 3#8 8#8 [1] (by decide) (by decide)
  have named : (frameOf 3#8 8#8 r).param 0 = value.toNat := by
    change wordAt r.params 0 = _
    rw [params]
    rfl
  have underwayTaking : (s.taking after .cycle).spm.plan.underway = s.spm.plan.underway := rfl
  have classTaking : (s.taking after .cycle).tableClass = s.tableClass := rfl
  have freeze := s.freezeCondition_taking after .cycle
  obtain ⟨rst, startUp, rtb, csm, ibe, rbt, spm, ric, tmo, cls, pending, strikePin, lidPin, -⟩ := s.taking_frame after .cycle
  refine ⟨fun underway => ?_, fun idle high auto => ?_, fun source idle asked => ?_⟩
  · rw [asks, ownAmendLoad, if_pos (underwayTaking.trans underway)]
    exact finish_justAnswers_nil after _ takes.1 .access
  · rw [asks, ownAmendLoad, if_neg (by rw [underwayTaking, idle]; decide), named, loadSourceOf_none high auto]
    exact finish_justAnswers_nil after _ takes.1 .range
  have amends : exec (.amendLoad after r) s =
      .next (State.replying .cycle ⟨r.addr, 3#8, 8#8⟩ ⟨.done, []⟩ ((s.taking after .cycle).amendLoad source)) := by
    rw [asks, ownAmendLoad, if_neg (by rw [underwayTaking, idle]; decide), named, loadSourceOf_asked asked]
    exact congrArg _ (finish_replying takes.1 _ .done)
  refine ⟨fun same => ?_, fun other => ?_⟩
  · rw [amends, State.amendLoad_same (same.trans classTaking.symm), Ibe.withSource_eq]
    rfl
  · obtain ⟨estimate, plan, plateaus, guard, ceiling, sensing, ring, bands⟩ :=
      State.amendLoad_restarts (s := s.taking after .cycle) (source := source) (by rw [classTaking]; exact other)
        (underwayTaking.trans idle)
    generalize hu : (s.taking after .cycle).amendLoad source = u at amends estimate plan plateaus guard ceiling sensing ring bands
    obtain ⟨sameRtb, sameCsm, sameTmo, sameCls, sameStrike, sameLid, sameRst, sameStartUp, samePending⟩ := sensing
    have newClass : u.tableClass = source.getD 2 := by
      have reads : u.tableClass = State.tableClass { s with ibe := s.ibe.withSource source } := by
        unfold State.tableClass
        rw [estimate, ibe]
      exact reads.trans (s.tableClass_withSource source)
    refine ⟨_, amends, rfl, newClass, ?_, plan.trans (by rw [spm]), plateaus.trans (by rw [spm]), ?_,
      guard.trans (by rw [spm]), ?_, fun safe => (ring ?_).trans ric,
      fun closed => (bands (by rw [rbt]; exact closed)).trans rbt⟩
    · exact estimate.trans (by rw [ibe, Ibe.withSource_eq])
    · exact ceiling ▸ u.ceilingFits_now
    · exact ⟨sameRtb.trans rtb, sameCsm.trans csm, sameTmo.trans tmo, sameCls.trans cls, sameStrike.trans strikePin,
        sameLid.trans lidPin, sameRst.trans rst, sameStartUp.trans startUp, samePending.trans pending⟩
    · rw [ric, freeze]
      exact State.ringSafe_frozen safe

end Sys2Proof.Machine
end

section
/-! START (O38). -/

namespace Sys2Proof.Machine

/-! ### Records read from their cores -/

/-- Records of the same core differ in state and flags alone. -/
theorem Plateau.eq_of_core {p q : Plateau} (h : q.core = p.core) : q = { p with
    state := q.state, derated := q.derated, bandAdjusted := q.bandAdjusted } := by
  have field {α : Type} (f : Plateau → α) (core : ∀ r : Plateau, f r.core = f r) : f q = f p := by
    rw [← core q, h, core p]
  cases q
  simp only [Plateau.mk.injEq, true_and, and_true]
  exact ⟨field Plateau.slot Plateau.core_slot, field Plateau.requested Plateau.core_requested,
    field Plateau.target Plateau.core_target, field Plateau.dwell Plateau.core_dwell, field Plateau.floor Plateau.core_floor,
    field Plateau.autoBalance Plateau.core_autoBalance, field Plateau.elapsed Plateau.core_elapsed,
    field Plateau.clamped Plateau.core_clamped⟩

/-- Of records with an ACTIVE head and no other ACTIVE one, an operation of the plan changes the head's phase and flags alone. -/
theorem records_of_core {ps rest : List Plateau} {p : Plateau} (cores : ps.map Plateau.core = (p :: rest).map Plateau.core)
    (active : p.isActive = true) (others : ∀ k ∈ rest, k.isActive = false) :
    ∃ q, ps = q :: rest ∧ q.isActive = true ∧
      q = { p with state := q.state, derated := q.derated, bandAdjusted := q.bandAdjusted } := by
  obtain ⟨q, tail, rfl, core, tails⟩ := List.map_eq_cons_iff.1 cores
  refine ⟨q, by rw [eq_of_core tails others], ?_, Plateau.eq_of_core core⟩
  rw [← Plateau.core_isActive, core, Plateau.core_isActive, active]

/-! ### The activation of the first record -/

/-- A change of the record in a slot leaves records that are all in others. -/
theorem map_otherSlots {n : Nat} {ps : List Plateau} (slots : ∀ k ∈ ps, k.slot ≠ n) (f : Plateau → Plateau) :
    ps.map (fun k => if k.slot = n then f k else k) = ps :=
  (List.map_congr_left fun k mem => if_neg (slots k mem)).trans (List.map_id' ps)

/-- The first record of a plan with no ACTIVE one is activated at its head (R103). -/
theorem State.activateNext_head {s : State} {p : Plateau} {rest : List Plateau} (records : s.spm.plateaus = p :: rest)
    (queued : p.isQueued = true) (slots : ∀ k ∈ rest, k.slot ≠ p.slot) :
    ∃ ph, s.activateNext = State.derive .fresh { s with spm := { s.spm with
      plateaus := { p with state := .active ph, elapsed := some 0 } :: rest, arrival := 0, dwellTimer := none } } := by
  have first : s.spm.plateaus.find? Plateau.isQueued = some p := by rw [records, List.find?_cons_of_pos queued]
  have stays (ph : Phase) : activateSlot p.slot ph s.spm.plateaus =
      { p with state := .active ph, elapsed := some 0 } :: rest := by
    rw [activateSlot, records, List.map_cons, if_pos rfl, map_otherSlots slots]
  unfold State.activateNext
  rw [first]
  dsimp only
  rw [stays]
  exact ⟨_, rfl⟩

/-! ### START -/

/-- The plan RUNNING with its smoothing restarted, up to the activation of the first record. -/
def State.startTaken (s : State) : State :=
  State.ceilingAndGrant (State.takeUpdate
    (State.estimatorStart (State.post .planState { s with spm := { s.spm with plan := .running } })))

/-- No order and no lookup comes of the update that a START gives, since its estimate is not SETTLED (R36). -/
theorem State.startPlan_eq (s : State) : s.startPlan = s.startTaken.activateNext.planReport := by
  have restarted (u : State) : u.estimatorStart.ibe.settle = 0 := by
    unfold State.estimatorStart
    dsimp only
    split <;> rfl
  rw [State.startPlan, State.giveUpdate_unsettled (State.settled_zero (restarted _)), State.startTaken]

/-- What IBE makes of a START (R36). -/
theorem State.estimatorStart_ibe (s : State) : s.estimatorStart.ibe = { s.ibe with
    uLast := none, restartPending := true, settle := 0,
    latched :=
      match s.ibe.declared, s.csm.loadMass with
      | some _, _ => s.ibe.latched
      | none, none => some 2
      | none, some m =>
        if m < wordAt (s.cls.inForce 27) 0 then some 0
        else if m < wordAt (s.cls.inForce 27) 1 then some 1
        else if m < wordAt (s.cls.inForce 27) 2 then some 2
        else some 3,
    sagAbsent := s.ibe.declared.isNone && s.csm.loadMass.isNone } := by
  unfold State.estimatorStart
  dsimp only
  split
  · next declared => simp [declared]
  · next declared mass =>
    simp only [declared, mass, classFor]
    split_ifs <;> rfl
  · next declared mass => simp [declared, mass]

theorem State.startTaken_planOp (s : State) :
    State.PlanOp (State.post .planState { s with spm := { s.spm with plan := .running } }) s.startTaken := by
  have restarts (u : State) : u.PlanOp u.estimatorStart := State.planOp_of_ring (by simp) (by simp)
  exact ((restarts _).trans (State.takeUpdate_planOp _)).trans (State.ceilingAndGrant_planOp _)

theorem State.startTaken_frame (s : State) :
    s.startTaken.rst = s.rst ∧ s.startTaken.startUp = s.startUp ∧ s.startTaken.strikePin = s.strikePin ∧
    s.startTaken.lidPin = s.lidPin ∧ s.startTaken.rtb = s.rtb ∧ s.startTaken.csm = s.csm ∧ s.startTaken.rbt = s.rbt ∧
    s.startTaken.ric = s.ric ∧ s.startTaken.tmo = s.tmo ∧ s.startTaken.cls = s.cls ∧
    s.startTaken.pending = s.pending := by
  simp [State.startTaken]

theorem State.startTaken_ibe (s : State) : s.startTaken.ibe = s.estimatorStart.ibe := by
  have taken : s.startTaken.ibe =
      (State.estimatorStart (State.post .planState { s with spm := { s.spm with plan := .running } })).ibe := by
    simp [State.startTaken]
  rw [taken, State.estimatorStart_ibe, State.estimatorStart_ibe]
  rfl

/-- The plan is RUNNING, or PAUSED by a derivation that found no speed (R110, R113). -/
def PlanState.started (p : PlanState) : Prop := p = .running ∨ p = .paused .rebalance

theorem State.PlanOp.started {s t : State} (h : s.PlanOp t) (before : s.spm.plan.started) : t.spm.plan.started := by
  rcases h.plan with same | ⟨-, paused⟩
  · rwa [same]
  · exact Or.inr paused

theorem Plateau.queued_notActive {p : Plateau} (queued : p.isQueued = true) : p.isActive = false := by
  have state : p.state = .queued := of_decide_eq_true queued
  simp [Plateau.isActive, state]

/-- The state before the report of a START that is taken: the first record is ACTIVE. -/
theorem State.startTaken_activates {s : State} {p : Plateau} {rest : List Plateau} (records : s.spm.plateaus = p :: rest)
    (queued : ∀ k ∈ p :: rest, k.isQueued = true) (slots : ∀ k ∈ rest, k.slot ≠ p.slot) :
    ∃ ph w, s.startTaken.activateNext = State.derive .fresh w ∧ w = { s.startTaken with spm := { s.startTaken.spm with
      plateaus := { p with state := .active ph, elapsed := some 0 } :: rest, arrival := 0, dwellTimer := none } } := by
  have kept : s.startTaken.spm.plateaus = p :: rest := by
    rw [← records]
    exact eq_of_core s.startTaken_planOp.cores fun k mem => Plateau.queued_notActive (queued k (records ▸ mem))
  obtain ⟨ph, next⟩ := State.activateNext_head kept (queued p List.mem_cons_self) slots
  exact ⟨ph, _, next, rfl⟩

/-- What a START that is taken does, record by record and block by block. -/
theorem State.startPlan_starts {s : State} {p : Plateau} {rest : List Plateau} (records : s.spm.plateaus = p :: rest)
    (queued : ∀ k ∈ p :: rest, k.isQueued = true) (slots : ∀ k ∈ rest, k.slot ≠ p.slot) :
    (∃ q, s.startPlan.spm.plateaus = q :: rest ∧ q.isActive = true ∧
      q = { p with state := q.state, elapsed := some 0, derated := q.derated, bandAdjusted := q.bandAdjusted }) ∧
    s.startPlan.spm.plan.started ∧ s.startPlan.lkp.notices.planState = true ∧
    s.startPlan.ibe = s.estimatorStart.ibe ∧ s.sameSensing s.startPlan ∧ s.startPlan.spm.guard = s.spm.guard ∧
    s.startPlan.lkp.part = s.lkp.part ∧
    (s.spm.plan = .loaded → s.ric.frozen = s.freezeCondition → s.startPlan.ric = s.ric) ∧
    (s.rbt.span = none → s.startPlan.rbt = s.rbt) := by
  have others : ∀ k ∈ rest, k.isActive = false := fun k mem =>
    Plateau.queued_notActive (queued k (List.mem_cons_of_mem p mem))
  have taken := s.startTaken_planOp
  obtain ⟨rst, startUp, strikePin, lidPin, rtb, csm, rbt, ric, tmo, cls, pending⟩ := s.startTaken_frame
  obtain ⟨ph, w, next, hw⟩ := State.startTaken_activates records queued slots
  rw [State.startPlan_eq, next]
  have derived := State.derive_planOp .fresh w
  have reported := derived.trans (State.planReport_planOp _)
  have running : w.spm.plan.started := by
    rw [hw]
    exact taken.started (Or.inl rfl)
  refine ⟨?_, reported.started running, ?_, ?_, ?_, ?_, ?_, fun loaded right => ?_, fun closed => ?_⟩
  · exact records_of_core (p := { p with state := .active ph, elapsed := some 0 })
      (reported.cores.trans (by rw [hw])) rfl others
  · refine reported.notices .planState ?_
    rw [hw]
    exact taken.notices .planState (by simp [State.post, NoticeSet.has_add])
  · simp [hw, State.startTaken_ibe]
  · simp [State.sameSensing, hw, rst, startUp, strikePin, lidPin, rtb, csm, tmo, cls, pending]
  · rw [reported.guard, hw]
    exact taken.guard
  · rw [reported.part, hw]
    exact taken.part
  · have part : (w.derive .fresh).lkp.part = s.lkp.part := by
      rw [derived.part, hw]
      exact taken.part
    have freeze : (w.derive .fresh).freezeCondition = s.freezeCondition := by
      refine State.freezeCondition_congr (by simp [hw, rtb]) (by simp [hw, tmo]) (by simp [hw, cls]) part ?_
      rcases derived.started running with plan | plan <;> simp [plan, loaded]
    have ring : (w.derive .fresh).ric = s.ric := by simp [hw, ric]
    rw [State.planReport_ric (by rw [ring, freeze, right]), ring]
  · rw [State.planReport_rbt (by simp [hw, rbt, closed])]
    simp [hw, rbt]

/-- The records of a consistent LOADED plan: a first one, all QUEUED, each in its own slot (R92, R93). -/
theorem State.loaded_records {s : State} (consistent : s.planConsistent = true) (loaded : s.spm.plan = .loaded) :
    ∃ p rest, s.spm.plateaus = p :: rest ∧ (∀ k ∈ p :: rest, k.isQueued = true) ∧ ∀ k ∈ rest, k.slot ≠ p.slot := by
  obtain ⟨slots, -, fits⟩ := State.planConsistent_slots consistent
  rw [loaded] at fits
  cases records : s.spm.plateaus with
  | nil => simp [recordsFit, records] at fits
  | cons p rest =>
    rw [records, List.map_cons, List.nodup_cons] at slots
    refine ⟨p, rest, rfl, fun k mem => ?_, fun k mem same => slots.1 (same ▸ List.mem_map_of_mem mem)⟩
    simp only [recordsFit, records, Bool.and_eq_true, List.all_eq_true] at fits
    exact fits.2 k mem

theorem ownStart_access {s : State} (bars : s.spm.plan ≠ .loaded ∨ s.tmo.lid = false ∨ s.tmo.first ≠ none) (f : Frame) :
    ownStart f s = s.answer .access := by
  rcases bars with plan | lid | trip
  · simp [ownStart, plan]
  · simp [ownStart, lid]
  · simp [ownStart, State.tripped, Option.isSome_iff_ne_none, trip]

/-- The tests of R102 that ask for ACCESS are passed. -/
theorem ownStart_allowed {s : State} (loaded : s.spm.plan = .loaded) (lid : s.tmo.lid = true) (clear : s.tmo.first = none)
    (f : Frame) : ownStart f s = if s.spm.restartHold then s.answer .busy else State.answer s.startPlan .done := by
  simp [ownStart, State.tripped, loaded, lid, clear]

/-- Settles O38, by the tests of R102 and the records of a consistent LOADED plan. -/
theorem startRunsThePlan : Obligations.StartRunsThePlan := by
  intro after r s takes consistent
  have asks : exec (.start after r) s = .next (State.finish (commandFrame 1#8 1#16 r)
      (ownStart (commandFrame 1#8 1#16 r) (s.taking after .cycle))) :=
    received_takesCommand takes after ownStart 1#8 1#16 [0] (by decide) (by decide)
  have port : (commandFrame 1#8 1#16 r).port = .cycle := takes.1
  refine ⟨fun bars => ?_, fun loaded lid clear hold => ?_, fun loaded lid clear hold => ?_⟩
  · rw [asks, ownStart_access (by exact bars)]
    exact finish_justAnswers_nil after _ port .access
  · rw [asks, ownStart_allowed (by exact loaded) (by exact lid) (by exact clear), if_pos (by exact hold)]
    exact finish_justAnswers_nil after _ port .busy
  have starts : exec (.start after r) s =
      .next (State.replying .cycle ⟨r.addr, 6#8, 1#8⟩ ⟨.done, []⟩ (s.taking after .cycle).startPlan) := by
    rw [asks, ownStart_allowed (by exact loaded) (by exact lid) (by exact clear), if_neg (by exact Bool.eq_false_iff.1 hold)]
    exact congrArg _ (finish_replying port _ .done)
  obtain ⟨p, rest, records, queued, slots⟩ := State.loaded_records consistent loaded
  obtain ⟨⟨q, made, active, fields⟩, plan, notice, estimate, sensing, guard, part, ring, bands⟩ :=
    State.startPlan_starts (s := s.taking after .cycle) records queued slots
  have freeze := s.freezeCondition_taking after .cycle
  obtain ⟨rst, startUp, rtb, csm, -, rbt, spm, ric, tmo, cls, pending, strikePin, lidPin, -⟩ := s.taking_frame after .cycle
  obtain ⟨sameRtb, sameCsm, sameTmo, sameCls, sameStrike, sameLid, sameRst, sameStartUp, samePending⟩ := sensing
  generalize (s.taking after .cycle).startPlan = t at *
  have first : t.active = some q := by rw [State.active, made, List.find?_cons_of_pos active]
  have changed : t.spm.plateaus = s.spm.plateaus.map (fun k => if k.slot = p.slot then q else k) := by
    rw [made, records, List.map_cons, if_pos rfl, map_otherSlots slots]
  refine ⟨_, p, starts, rfl, plan, notice, by rw [records]; rfl, ⟨q, first, fields, changed⟩, ?_, ?_,
    guard.trans (by rw [spm]), part, fun safe => (ring ?_ ?_).trans ric, fun closed => (bands (by rw [rbt]; exact closed)).trans rbt⟩
  · exact estimate.trans (State.estimatorStart_ibe _)
  · exact ⟨sameRtb.trans rtb, sameCsm.trans csm, sameTmo.trans tmo, sameCls.trans cls, sameStrike.trans strikePin,
      sameLid.trans lidPin, sameRst.trans rst, sameStartUp.trans startUp, samePending.trans pending⟩
  · rw [spm, loaded]
  · rw [ric, freeze]
    exact State.ringSafe_frozen safe

end Sys2Proof.Machine
end

section
/-! INJECT: its refusals and what it queues (the first half of O46). -/

namespace Sys2Proof.Machine

/-! ### What a taken INJECT does -/

theorem State.injectTaken_ric (v : Injection) (s : State) : (s.injectTaken v).ric = { s.ric with
    queue := v.queue, bound := if s.ric.queue.isEmpty then s.capture else s.ric.bound } := by
  simp [State.injectTaken]

theorem State.injectTaken_ibe (v : Injection) (s : State) :
    (s.injectTaken v).ibe = { s.ibe with ringQuiet := 0, latch := (s.injectTaken v).ibe.latch } :=
  State.ordersTaken_ibe _

/-- An INJECT touches the ring and the estimate alone. -/
theorem State.injectTaken_others (v : Injection) (s : State) :
    (s.injectTaken v).spm = s.spm ∧ (s.injectTaken v).rbt = s.rbt ∧ s.sameSensing (s.injectTaken v) := by
  simp [State.injectTaken, State.sameSensing]

/-! ### One pair -/

/-- The injection before its first pair (R132). -/
def Injection.start (q : List Order) : Injection := ⟨q, [], false, false⟩

theorem State.inject_one (p : Pair) (s : State) :
    s.inject [p] = (Injection.start s.ric.queue).pair s.capacity s.ric.contents p := rfl

/-- A pair that merges with the tail (R132, step 2). -/
theorem Injection.pair_merges {capacity : Nat} {contents : Option (Four Nat)} {p : Pair} {front : List Order} {last : Order}
    (waiting : last.state = .waiting) (chamber : last.chamber = chamberOf p.chamber) (partner : last.origin = .partner) :
    (Injection.start (front ++ [last])).pair capacity contents p =
      let room := roomFor capacity contents (front ++ [last]) (chamberOf p.chamber)
      { queue := front ++ [{ last with
          requested := last.requested + min p.grams room, clamped := last.clamped || decide (room < p.grams) }],
        taken := [min p.grams room], adjusted := true, noRoom := decide (room = 0) } := by
  have merges : mergesTail (chamberOf p.chamber) (front ++ [last]) = true := by
    simp [mergesTail, waiting, chamber, partner]
  simp only [Injection.pair, Injection.start, merges, mergeTail, List.getLast?_concat, List.dropLast_concat, if_true,
    Bool.or_true, Bool.false_or]
  rfl

/-- A pair that joins at the tail (R132, step 3). -/
theorem Injection.pair_joins {capacity : Nat} {contents : Option (Four Nat)} {p : Pair} {q : List Order}
    (apart : ∀ last, q.getLast? = some last →
      last.state ≠ .waiting ∨ last.chamber ≠ chamberOf p.chamber ∨ last.origin ≠ .partner) :
    (Injection.start q).pair capacity contents p =
      let room := roomFor capacity contents q (chamberOf p.chamber)
      { queue := q ++ [⟨chamberOf p.chamber, min p.grams room, 0, .partner, .waiting, decide (room < p.grams)⟩],
        taken := [min p.grams room], adjusted := decide (room < p.grams), noRoom := decide (room = 0) } := by
  have joins : mergesTail (chamberOf p.chamber) q = false := by
    cases tail : q.getLast? with
    | none => simp [mergesTail, tail]
    | some last =>
      rcases apart last tail with state | chamber | origin
      · simp [mergesTail, tail, state]
      · simp [mergesTail, tail, chamber]
      · simp [mergesTail, tail, origin]
  simp only [Injection.pair, Injection.start, joins, Bool.false_eq_true, if_false, Bool.or_false, Bool.false_or]
  rfl

/-! ### The request -/

theorem inject_asks {r : Request} {s : State} (counts : r.params.length ∈ [2, 4, 6, 8]) (port : r.port = .cycle)
    (ready : s.ready .cycle r.addr) (after : Nat) : exec (.inject after r) s =
      .next (State.finish (frameOf 7#8 7#8 r) (ownInject (frameOf 7#8 7#8 r) (s.taking after .cycle))) :=
  received_takes ⟨port, rfl, ready⟩ after ownInject 7#8 7#8 [2, 4, 6, 8] (by decide) counts

/-- The first failing test of Table 7-6 is the answer. -/
theorem inject_refused {r : Request} {s : State} (counts : r.params.length ∈ [2, 4, 6, 8]) (port : r.port = .cycle)
    (ready : s.ready .cycle r.addr) (after : Nat) {o : Outcome} (refused : s.injectRefused (pairsOf r.params) = some o) :
    exec (.inject after r) s = s.justAnswers after ⟨r.addr, 7#8, 7#8⟩ o [] := by
  have found : (s.taking after .cycle).injectRefused (pairsOf (frameOf 7#8 7#8 r).params) = some o := refused
  rw [inject_asks counts port ready after]
  simp only [ownInject, found]
  exact finish_justAnswers_nil after _ port o

/-- With no test failing the orders are taken and answered with the grams of each pair and the queue's length. -/
theorem inject_taken {r : Request} {s : State} (counts : r.params.length ∈ [2, 4, 6, 8]) (port : r.port = .cycle)
    (ready : s.ready .cycle r.addr) (after : Nat) (passed : s.injectRefused (pairsOf r.params) = none) :
    exec (.inject after r) s = .next (State.replying .cycle ⟨r.addr, 7#8, 7#8⟩
      ⟨adjustedIf (s.inject (pairsOf r.params)).adjusted, (s.inject (pairsOf r.params)).taken.reverse.map word ++
        [word (s.inject (pairsOf r.params)).queue.length]⟩
      ((s.taking after .cycle).injectTaken (s.inject (pairsOf r.params)))) := by
  have found : (s.taking after .cycle).injectRefused (pairsOf (frameOf 7#8 7#8 r).params) = none := passed
  have cycle : (frameOf 7#8 7#8 r).port = .cycle := port
  rw [inject_asks counts port ready after]
  simp only [ownInject, found, State.answerWith, State.finish_answer, cycle]
  rfl

/-! ### The tests of Table 7-6 -/

/-- The tests that come before the room and the entries of the queue, all passed. -/
structure State.InjectOpen (s : State) (pairs : List Pair) : Prop where
  flush : s.ric.flush = false
  store : s.cls.defaulted = false
  chambers : ∀ p ∈ pairs, p.chamber ≤ 3
  contents : s.ric.contents ≠ none
  grams : ∀ p ∈ pairs, p.grams ≠ 0

theorem anyChamber_iff {pairs : List Pair} :
    pairs.any (fun p => 3 < p.chamber) = true ↔ ∃ p ∈ pairs, 3 < p.chamber := by simp

theorem anyChamber_none {pairs : List Pair} (chambers : ∀ p ∈ pairs, p.chamber ≤ 3) :
    pairs.any (fun p => 3 < p.chamber) = false := by
  simpa using chambers

theorem State.injectRefused_flush {s : State} (flush : s.ric.flush = true) (pairs : List Pair) :
    s.injectRefused pairs = some .busy := by
  simp [State.injectRefused, flush]

theorem State.injectRefused_store {s : State} (flush : s.ric.flush = false) (store : s.cls.defaulted = true)
    (pairs : List Pair) : s.injectRefused pairs = some .access := by
  simp [State.injectRefused, flush, store]

theorem State.injectRefused_chamber {s : State} {pairs : List Pair} (flush : s.ric.flush = false)
    (store : s.cls.defaulted = false) (out : ∃ p ∈ pairs, 3 < p.chamber) : s.injectRefused pairs = some .range := by
  simp only [State.injectRefused, flush, store, anyChamber_iff.2 out, Bool.false_eq_true, if_false, if_true]

theorem State.injectRefused_unknown {s : State} {pairs : List Pair} (flush : s.ric.flush = false)
    (store : s.cls.defaulted = false) (chambers : ∀ p ∈ pairs, p.chamber ≤ 3) (unknown : s.ric.contents = none) :
    s.injectRefused pairs = some .access := by
  simp only [State.injectRefused, flush, store, anyChamber_none chambers, unknown, Bool.false_eq_true, if_false,
    Option.isNone_none, if_true]

theorem State.injectRefused_grams {s : State} {pairs : List Pair} (flush : s.ric.flush = false)
    (store : s.cls.defaulted = false) (chambers : ∀ p ∈ pairs, p.chamber ≤ 3) (known : s.ric.contents ≠ none)
    (empty : ∃ p ∈ pairs, p.grams = 0) : s.injectRefused pairs = some .range := by
  have zero : pairs.any (fun p => p.grams = 0) = true := by simpa using empty
  have isSome : s.ric.contents.isNone = false := by simpa [Option.isSome_iff_ne_none] using known
  simp only [State.injectRefused, flush, store, anyChamber_none chambers, isSome, zero, Bool.false_eq_true, if_false, if_true]

/-- With the first tests passed, room and entries decide (Table 7-6, tests 6 and 7). -/
theorem State.injectRefused_open {s : State} {pairs : List Pair} (h : s.InjectOpen pairs) :
    s.injectRefused pairs =
      if (s.inject pairs).noRoom then some .full
      else if Config.queueEntries < (s.inject pairs).queue.length then some .full else none := by
  obtain ⟨flush, store, chambers, contents, grams⟩ := h
  have zero : pairs.any (fun p => p.grams = 0) = false := by simpa using grams
  have isSome : s.ric.contents.isNone = false := by simpa [Option.isSome_iff_ne_none] using contents
  simp only [State.injectRefused, flush, store, anyChamber_none chambers, isSome, zero, Bool.false_eq_true, if_false]

theorem State.injectRefused_full {s : State} {pairs : List Pair} (h : s.InjectOpen pairs)
    (full : (s.inject pairs).noRoom = true ∨ 8 < (s.inject pairs).queue.length) : s.injectRefused pairs = some .full := by
  rw [State.injectRefused_open h]
  rcases full with noRoom | entries
  · rw [if_pos noRoom]
  · rw [if_pos (show Config.queueEntries < _ from entries), ite_self]

theorem State.injectRefused_passed {s : State} {pairs : List Pair} (h : s.InjectOpen pairs)
    (room : (s.inject pairs).noRoom = false) (entries : (s.inject pairs).queue.length ≤ 8) :
    s.injectRefused pairs = none := by
  rw [State.injectRefused_open h, if_neg (Bool.eq_false_iff.1 room),
    if_neg (Nat.not_lt.2 (show _ ≤ Config.queueEntries from entries))]

/-! ### One pair at its request -/

/-- An INJECT of one pair that passes the first tests. -/
structure OnePair (j : Fin 4) (grams : Word) (contents : Four Nat) (r : Request) (s : State) : Prop where
  port : r.port = .cycle
  ready : s.ready .cycle r.addr
  params : r.params = [BitVec.ofNat 16 j.val, grams]
  flush : s.ric.flush = false
  store : s.cls.defaulted = false
  known : s.ric.contents = some contents
  asked : grams ≠ 0#16

theorem OnePair.pairs {j : Fin 4} {grams : Word} {contents : Four Nat} {r : Request} {s : State}
    (h : OnePair j grams contents r s) : pairsOf r.params = [⟨j.val, grams.toNat⟩] := by
  have small : j.val < 65536 := by omega
  simp [h.params, pairsOf, BitVec.toNat_ofNat, Nat.mod_eq_of_lt small]

theorem OnePair.counts {j : Fin 4} {grams : Word} {contents : Four Nat} {r : Request} {s : State}
    (h : OnePair j grams contents r s) : r.params.length ∈ [2, 4, 6, 8] := by
  simp [h.params]

theorem OnePair.opens {j : Fin 4} {grams : Word} {contents : Four Nat} {r : Request} {s : State}
    (h : OnePair j grams contents r s) : s.InjectOpen (pairsOf r.params) where
  flush := h.flush
  store := h.store
  contents := by simp [h.known]
  chambers := by
    rw [h.pairs]
    intro p mem
    obtain rfl := List.mem_singleton.1 mem
    exact Nat.le_of_lt_succ j.isLt
  grams := by
    rw [h.pairs]
    intro p mem zero
    obtain rfl := List.mem_singleton.1 mem
    exact h.asked (BitVec.eq_of_toNat_eq zero)

theorem chamberOf_val (j : Fin 4) : chamberOf j.val = j := by
  revert j
  decide

/-- What an INJECT that passes its tests leaves, and its answer (R132). -/
theorem inject_queues {r : Request} {s : State} (counts : r.params.length ∈ [2, 4, 6, 8]) (port : r.port = .cycle)
    (ready : s.ready .cycle r.addr) (after : Nat) (passed : s.injectRefused (pairsOf r.params) = none) :
    ∃ t, exec (.inject after r) s = .next t ∧
      t.reply .cycle = some ⟨adjustedIf (s.inject (pairsOf r.params)).adjusted,
        (s.inject (pairsOf r.params)).taken.reverse.map word ++ [word (s.inject (pairsOf r.params)).queue.length]⟩ ∧
      t.ric = { s.ric with
        queue := (s.inject (pairsOf r.params)).queue,
        bound := if s.ric.queue.isEmpty then (s.time + after) % 16777216 else s.ric.bound } ∧
      t.ibe = { s.ibe with ringQuiet := 0, latch := t.ibe.latch } ∧ t.spm = s.spm ∧ t.rbt = s.rbt ∧ s.sameSensing t := by
  have asks := inject_taken counts port ready after passed
  generalize s.inject (pairsOf r.params) = v at asks ⊢
  have ring := State.injectTaken_ric v (s.taking after .cycle)
  have estimate := State.injectTaken_ibe v (s.taking after .cycle)
  obtain ⟨plan, bands, sensing⟩ := State.injectTaken_others v (s.taking after .cycle)
  obtain ⟨rst, startUp, rtb, csm, ibe, rbt, spm, ric, tmo, cls, pending, strikePin, lidPin, time⟩ :=
    s.taking_frame after .cycle
  obtain ⟨sameRtb, sameCsm, sameTmo, sameCls, sameStrike, sameLid, sameRst, sameStartUp, samePending⟩ := sensing
  have capture : (s.taking after .cycle).capture = (s.time + after) % 16777216 := by
    have live : (s.taking after .cycle).inReset = false := by
      rw [State.inReset, rst]
      exact ready.1
    rw [State.capture, live, time]
    rfl
  rw [capture, ric] at ring
  rw [ibe] at estimate
  generalize (s.taking after .cycle).injectTaken v = t at *
  exact ⟨_, asks, rfl, ring, estimate, plan.trans spm, bands.trans rbt, sameRtb.trans rtb, sameCsm.trans csm,
    sameTmo.trans tmo, sameCls.trans cls, sameStrike.trans strikePin, sameLid.trans lidPin, sameRst.trans rst,
    sameStartUp.trans startUp, samePending.trans pending⟩

/-- The room of the pair's chamber (R129). -/
theorem OnePair.room {j : Fin 4} {grams : Word} {contents : Four Nat} {r : Request} {s : State}
    (h : OnePair j grams contents r s) :
    roomFor s.capacity s.ric.contents s.ric.queue j = gramsOfRoom s.capacity contents s.ric.queue j := by
  rw [h.known]
  rfl

/-- A pair whose chamber has no room is FULL (R131, test 6). -/
theorem OnePair.noRoom {j : Fin 4} {grams : Word} {contents : Four Nat} {r : Request} {s : State}
    (h : OnePair j grams contents r s) (full : gramsOfRoom s.capacity contents s.ric.queue j = 0) :
    s.injectRefused (pairsOf r.params) = some .full := by
  refine State.injectRefused_full h.opens (Or.inl ?_)
  rw [h.pairs, State.inject_one]
  simp [Injection.pair, Injection.start, chamberOf_val, h.room, full]

/-- A pair that merges into the tail (R132, step 2). -/
theorem OnePair.merges {j : Fin 4} {grams : Word} {contents : Four Nat} {r : Request} {s : State}
    (h : OnePair j grams contents r s) {front : List Order} {last : Order} (queue : s.ric.queue = front ++ [last])
    (waiting : last.state = .waiting) (chamber : last.chamber = j) (partner : last.origin = .partner) :
    s.inject (pairsOf r.params) =
      { queue := front ++ [{ last with
          requested := last.requested + min grams.toNat (gramsOfRoom s.capacity contents s.ric.queue j)
          clamped := last.clamped || decide (gramsOfRoom s.capacity contents s.ric.queue j < grams.toNat) }]
        taken := [min grams.toNat (gramsOfRoom s.capacity contents s.ric.queue j)]
        adjusted := true
        noRoom := decide (gramsOfRoom s.capacity contents s.ric.queue j = 0) } := by
  have room := h.room
  rw [queue] at room ⊢
  rw [h.pairs, State.inject_one, queue,
    Injection.pair_merges waiting (chamber.trans (chamberOf_val j).symm) partner]
  simp only [chamberOf_val, room]

/-- A pair that joins at the tail (R132, step 3). -/
theorem OnePair.joins {j : Fin 4} {grams : Word} {contents : Four Nat} {r : Request} {s : State}
    (h : OnePair j grams contents r s)
    (apart : ∀ last, s.ric.queue.getLast? = some last →
      last.state ≠ .waiting ∨ last.chamber ≠ j ∨ last.origin ≠ .partner) :
    s.inject (pairsOf r.params) =
      { queue := s.ric.queue ++ [⟨j, min grams.toNat (gramsOfRoom s.capacity contents s.ric.queue j), 0, .partner, .waiting,
          decide (gramsOfRoom s.capacity contents s.ric.queue j < grams.toNat)⟩]
        taken := [min grams.toNat (gramsOfRoom s.capacity contents s.ric.queue j)]
        adjusted := decide (gramsOfRoom s.capacity contents s.ric.queue j < grams.toNat)
        noRoom := decide (gramsOfRoom s.capacity contents s.ric.queue j = 0) } := by
  rw [h.pairs, State.inject_one, Injection.pair_joins (by rw [chamberOf_val]; exact apart)]
  simp only [chamberOf_val, h.room]

theorem adjustedIf_eq (b : Bool) : adjustedIf b = if b then .adjusted else .done := rfl

end Sys2Proof.Machine
end

section
/-! What the blocks leave of a waiting ring at a completion: the automatic posting (the second half of O46) sees the ring, the
plan and the estimate as the event found or made them, in whatever order the blocks take it. -/

namespace Sys2Proof.Machine

/-! ### RING_EXHAUSTED is posted by nothing else -/

/-- The notice of an automatic posting that finds no room. -/
def State.exhausted (s : State) : Bool := s.lkp.notices.ringExhausted

theorem NoticeSet.add_exhausted {n : Notice} (other : n ≠ .ringExhausted) (v : NoticeSet) :
    (v.add n).ringExhausted = v.ringExhausted := by
  cases n with
  | ringExhausted => exact absurd rfl other
  | _ => rfl

theorem State.post_exhausted {n : Notice} (other : n ≠ .ringExhausted) (s : State) :
    (s.post n).exhausted = s.exhausted :=
  NoticeSet.add_exhausted other _

theorem State.postFor_exhausted {n : Notice} (other : n ≠ .ringExhausted) (p : Port) (s : State) :
    (s.postFor p n).exhausted = s.exhausted := by
  cases p
  · exact s.post_exhausted other
  · rfl

theorem State.exhausted_congr {s t : State} (lkp : t.lkp = s.lkp) : t.exhausted = s.exhausted := by
  rw [State.exhausted, lkp, State.exhausted]

theorem State.evaluateGrant_exhausted (n : Nat) (s : State) : (s.evaluateGrant n).exhausted = s.exhausted := by
  have puts (g : GrantRecord) : (s.putGrant g).exhausted = s.exhausted := by
    unfold State.putGrant
    split <;> rfl
  have moves (m : Nat) (u : State) : (u.speedChanged m).exhausted = u.exhausted := by
    unfold State.speedChanged
    split <;> rfl
  have arrives (u : State) : u.arriveAtZero.exhausted = u.exhausted := by
    unfold State.arriveAtZero
    split <;> rfl
  exact (arrives _).trans ((moves _ _).trans (puts _))

theorem State.refreshGrant_exhausted (s : State) : s.refreshGrant.exhausted = s.exhausted := s.evaluateGrant_exhausted _

theorem State.derive_exhausted (k : DerivationKind) (s : State) : (s.derive k).exhausted = s.exhausted := by
  unfold State.derive
  split
  · dsimp only
    split
    · exact State.evaluateGrant_exhausted _ _
    · cases k <;> exact State.evaluateGrant_exhausted _ _
  · exact s.refreshGrant_exhausted

theorem State.ceilingAndGrant_exhausted (s : State) : s.ceilingAndGrant.exhausted = s.exhausted :=
  State.derive_exhausted _ _

theorem State.unforceGrant_exhausted (s : State) : s.unforceGrant.exhausted = s.exhausted := by
  unfold State.unforceGrant
  split
  · exact s.refreshGrant_exhausted
  · exact s.derive_exhausted _

theorem State.closeSpan_exhausted (s : State) : s.closeSpan.exhausted = s.exhausted := by
  unfold State.closeSpan
  split
  · rfl
  · dsimp only
    split
    · rfl
    · split
      · rfl
      all_goals exact State.ceilingAndGrant_exhausted _

theorem State.testLatch_exhausted (s : State) : s.testLatch.exhausted = s.exhausted := by
  unfold State.testLatch
  split
  · split
    · exact State.postFor_exhausted (by decide) _ _
    · rfl
  · rfl
  · rfl

/-! ### A waiting ring through an operation -/

/-- Every order waits at a closed valve: neither a freeze nor a thaw moves one (R143, R144). -/
def Ric.waits (r : Ric) : Prop := r.opening = none ∧ ∀ o ∈ r.queue, o.state = .waiting

/-- Orders, chambers and valve are the same; the service bound is too, or is now. -/
structure Ric.SameOrders (now : Nat) (r q : Ric) : Prop where
  queue : q.queue = r.queue
  contents : q.contents = r.contents
  flush : q.flush = r.flush
  opening : q.opening = r.opening
  bound : q.bound = r.bound ∨ q.bound = now

theorem Ric.SameOrders.refl (now : Nat) (r : Ric) : r.SameOrders now r := ⟨rfl, rfl, rfl, rfl, Or.inl rfl⟩

theorem Ric.SameOrders.waits {now : Nat} {r q : Ric} (h : r.SameOrders now q) (waits : r.waits) : q.waits := by
  rw [Ric.waits, h.opening, h.queue]
  exact waits

theorem Ric.SameOrders.trans {now : Nat} {r q p : Ric} (h : r.SameOrders now q) (k : q.SameOrders now p) :
    r.SameOrders now p := by
  refine ⟨k.queue.trans h.queue, k.contents.trans h.contents, k.flush.trans h.flush, k.opening.trans h.opening, ?_⟩
  rcases k.bound with same | here
  · rw [same]
    exact h.bound
  · exact Or.inr here

/-- What an automatic posting reads outside the estimate and the Rotation Timebase stays, a plan that runs after ran before, and
nothing posts RING_EXHAUSTED. -/
structure State.Apart (s t : State) : Prop where
  time : t.time = s.time
  rst : t.rst = s.rst
  cls : t.cls = s.cls
  guard : t.spm.guard = s.spm.guard
  cores : t.spm.plateaus.map Plateau.core = s.spm.plateaus.map Plateau.core
  plan : t.spm.plan = .running → s.spm.plan = .running
  exhausted : t.exhausted = s.exhausted
  ring : s.ric.waits → s.ric.SameOrders s.capture t.ric

theorem State.Apart.capture {s t : State} (h : s.Apart t) : t.capture = s.capture := by
  rw [State.capture, State.inReset, h.time, h.rst, State.capture, State.inReset]

theorem State.Apart.trans {s t u : State} (h : s.Apart t) (k : t.Apart u) : s.Apart u where
  time := k.time.trans h.time
  rst := k.rst.trans h.rst
  cls := k.cls.trans h.cls
  guard := k.guard.trans h.guard
  cores := k.cores.trans h.cores
  plan running := h.plan (k.plan running)
  exhausted := k.exhausted.trans h.exhausted
  ring waits := (h.ring waits).trans (h.capture ▸ k.ring ((h.ring waits).waits waits))

/-- The same of an operation outside Rotation Timebase and Imbalance Estimator. -/
structure State.Aside (s t : State) : Prop extends s.Apart t where
  rtb : t.rtb = s.rtb
  ibe : t.ibe = s.ibe

theorem State.Aside.trans {s t u : State} (h : s.Aside t) (k : t.Aside u) : s.Aside u :=
  ⟨h.toApart.trans k.toApart, k.rtb.trans h.rtb, k.ibe.trans h.ibe⟩

/-- The last operation of several comes first here, since it is the one that the state after them names. -/
theorem State.Aside.after {s t u : State} (k : t.Aside u) (h : s.Aside t) : s.Aside u := h.trans k

/-- Nothing but the estimate, the Rotation Timebase and the sampler may differ. -/
theorem State.apart_of_frame {s t : State} (h : t.time = s.time ∧ t.rst = s.rst ∧ t.cls = s.cls ∧ t.spm = s.spm ∧
    t.ric = s.ric) (exhausted : t.exhausted = s.exhausted) : s.Apart t := by
  obtain ⟨time, rst, cls, spm, ric⟩ := h
  exact ⟨time, rst, cls, by rw [spm], by rw [spm], fun running => by rwa [spm] at running, exhausted,
    fun _ => by rw [ric]; exact .refl _ _⟩

theorem State.Aside.refl (s : State) : s.Aside s :=
  ⟨State.apart_of_frame ⟨rfl, rfl, rfl, rfl, rfl⟩ rfl, rfl, rfl⟩

/-- An operation of the plan that leaves the other blocks. -/
theorem State.PlanOp.aside {s t : State} (h : s.PlanOp t) (frame : t.time = s.time ∧ t.rst = s.rst ∧ t.rtb = s.rtb ∧
    t.ibe = s.ibe ∧ t.ric = s.ric ∧ t.cls = s.cls) (exhausted : t.exhausted = s.exhausted) : s.Aside t := by
  obtain ⟨time, rst, rtb, ibe, ric, cls⟩ := frame
  refine ⟨⟨time, rst, cls, h.guard, h.cores, fun running => ?_, exhausted, fun _ => by rw [ric]; exact .refl _ _⟩, rtb, ibe⟩
  rcases h.plan with same | ⟨-, paused⟩
  · rwa [same] at running
  · rw [paused] at running
    exact nomatch running

/-! ### The operations of a completion -/

theorem State.post_aside {n : Notice} (other : n ≠ .ringExhausted) (s : State) : s.Aside (s.post n) :=
  (s.post_planOp n).aside (by simp) (s.post_exhausted other)

theorem State.refreshGrant_aside (s : State) : s.Aside s.refreshGrant :=
  s.refreshGrant_planOp.aside (by simp) s.refreshGrant_exhausted

theorem State.ceilingAndGrant_aside (s : State) : s.Aside s.ceilingAndGrant :=
  s.ceilingAndGrant_planOp.aside (by simp) s.ceilingAndGrant_exhausted

theorem State.unforceGrant_aside (s : State) : s.Aside s.unforceGrant :=
  s.unforceGrant_planOp.aside (by simp) s.unforceGrant_exhausted

theorem State.closeSpan_aside (s : State) : s.Aside s.closeSpan :=
  s.closeSpan_planOp.aside (by simp) s.closeSpan_exhausted

/-- A freeze finds no head to put back, and a thaw makes the service bound now (R144). -/
theorem State.refreeze_sameOrders {s : State} (waits : s.ric.waits) : s.ric.SameOrders s.capture s.refreeze.ric := by
  obtain ⟨shut, waiting⟩ := waits
  have stays : s.cutOpening.putBack = s := by
    rw [State.cutOpening, shut]
    cases queue : s.ric.queue with
    | nil => simp [State.putBack, queue]
    | cons o rest =>
      have state : o.state = .waiting := waiting o (queue ▸ List.mem_cons_self)
      simp [State.putBack, queue, state]
  unfold State.refreeze
  rw [stays]
  split_ifs
  · exact .refl _ _
  · exact ⟨rfl, rfl, rfl, rfl, Or.inl rfl⟩
  · exact ⟨rfl, rfl, rfl, rfl, Or.inr rfl⟩
  · exact .refl _ _

theorem State.refreeze_aside (s : State) : s.Aside s.refreeze :=
  ⟨⟨by simp, by simp, by simp, by simp, by simp, by simp, State.exhausted_congr (by simp), State.refreeze_sameOrders⟩,
    by simp, by simp⟩

theorem State.planReport_aside (s : State) : s.Aside s.planReport := by
  unfold State.planReport
  split
  · exact s.refreeze_aside
  · exact (State.refreeze_aside _).after s.closeSpan_aside

/-- TMO's and the sampler's own records, the spans and the windows may differ. -/
theorem State.aside_of_frame {s t : State} (h : t.time = s.time ∧ t.rst = s.rst ∧ t.cls = s.cls ∧ t.spm = s.spm ∧
    t.ric = s.ric) (lkp : t.lkp = s.lkp) (rtb : t.rtb = s.rtb) (ibe : t.ibe = s.ibe) : s.Aside t :=
  ⟨State.apart_of_frame h (State.exhausted_congr lkp), rtb, ibe⟩

theorem State.learn_aside (c : Completion) (s : State) : s.Aside (s.learn c) := by
  unfold State.learn
  split
  · exact s.closeSpan_aside
  · split
    · exact .refl s
    · dsimp only
      split
      · exact State.aside_of_frame ⟨rfl, rfl, rfl, rfl, rfl⟩ rfl rfl rfl
      · exact s.closeSpan_aside

/-- SPM's own record may differ where its records have the same cores. -/
theorem State.aside_of_spm {s : State} {v : Spm} (guard : v.guard = s.spm.guard)
    (cores : v.plateaus.map Plateau.core = s.spm.plateaus.map Plateau.core)
    (plan : v.plan = .running → s.spm.plan = .running) : s.Aside { s with spm := v } :=
  ⟨⟨rfl, rfl, rfl, guard, cores, plan, rfl, fun _ => .refl _ _⟩, rfl, rfl⟩

theorem State.testArrival_aside (c : Completion) (s : State) : s.Aside (s.testArrival c) := by
  unfold State.testArrival
  dsimp only
  split_ifs
  · exact State.aside_of_spm rfl rfl id
  · exact State.aside_of_spm rfl (map_core_mapActive (fun p active => Plateau.core_withPhase _ active) _) id
  · exact State.aside_of_spm rfl rfl id
  · exact .refl s

theorem State.planCompletion_aside (c : Completion) (s : State) : s.Aside (s.planCompletion c) := by
  have updates (u : State) : u.Aside u.takeUpdate := State.aside_of_spm rfl rfl id
  have tests (u : State) : u.Aside u.testWindow := State.aside_of_spm rfl rfl id
  exact (State.planReport_aside _).after ((State.refreshGrant_aside _).after ((tests _).after
    ((State.testArrival_aside _ _).after ((State.ceilingAndGrant_aside _).after (updates s)))))

theorem State.pausePlan_aside (r : PauseReason) (s : State) : s.Aside (s.pausePlan r) := by
  refine (State.post_aside (by decide) _).after (State.aside_of_spm rfl ?_ fun running => nomatch running)
  exact map_core_mapActive (fun p active => Plateau.core_withPhase _ active) _

/-- A change of part state but the entry into QUIET. -/
theorem State.setPart_aside {p : PartState} (awake : p ≠ .quiet) (s : State) : s.Aside (s.setPart p) := by
  have handed : s.Aside (s.partHanded p) := by
    unfold State.partHanded
    rw [if_neg awake]
    exact ⟨State.apart_of_frame (by simp) (by simp [State.exhausted]), by simp, by simp⟩
  rw [State.setPart_eq]
  refine (State.planReport_aside _).after ?_
  split
  · exact (State.unforceGrant_aside _).after handed
  · exact (State.refreshGrant_aside _).after handed

/-- LKP's own record may differ in all but the notices. -/
theorem State.aside_of_lkp {s : State} {v : Lkp} (notices : v.notices = s.lkp.notices) : s.Aside { s with lkp := v } :=
  ⟨State.apart_of_frame ⟨rfl, rfl, rfl, rfl, rfl⟩ (congrArg NoticeSet.ringExhausted notices), rfl, rfl⟩

theorem State.cancelQuiet_aside (s : State) : s.Aside s.cancelQuiet :=
  (State.setPart_aside (by decide) _).after (State.aside_of_lkp rfl)

theorem State.turningReport_aside (s : State) : s.Aside s.turningReport := by
  unfold State.turningReport
  split
  · exact s.cancelQuiet_aside
  · unfold State.wakeSource
    dsimp only
    split
    · exact (State.post_aside (by decide) _).after ((State.setPart_aside (by decide) _).after (State.aside_of_lkp rfl))
    · exact s.post_aside (by decide)
    · exact .refl s
    · exact .refl s
    · exact .refl s

theorem State.handTrip_aside (s : State) : s.Aside s.handTrip := by
  have plans : s.Aside s.tripPlan := by
    unfold State.tripPlan State.takePause
    split_ifs
    · exact .refl s
    · exact s.pausePlan_aside _
    · exact .refl s
  have told := (State.planReport_aside _).after ((State.refreshGrant_aside _).after plans)
  unfold State.handTrip
  dsimp only
  split
  · exact (State.cancelQuiet_aside _).after told
  · exact told

/-- TMO's own record may differ. -/
theorem State.aside_of_tmo (s : State) (v : Tmo) : s.Aside { s with tmo := v } :=
  State.aside_of_frame ⟨rfl, rfl, rfl, rfl, rfl⟩ rfl rfl rfl

theorem State.findCause_aside (c : Cause) (s : State) : s.Aside (s.findCause c) := by
  unfold State.findCause
  split
  · exact (State.handTrip_aside _).after ((State.post_aside (by decide) _).after (s.aside_of_tmo _))
  · split
    · exact .refl s
    · exact (State.post_aside (by decide) _).after (s.aside_of_tmo _)

/-- Every block but RIC takes a completion without a part in the posting. -/
theorem State.takeCompletion_aside {k : Taker} (other : k ≠ .ric) (c : Completion) (s : State) :
    s.Aside (s.takeCompletion c k) := by
  cases k with
  | rbt => exact s.learn_aside c
  | spm => exact s.planCompletion_aside c
  | ric => exact absurd rfl other
  | orbit =>
    change s.Aside (s.testOrbit c)
    unfold State.testOrbit
    split
    · exact s.findCause_aside _
    · exact .refl s
  | sensors =>
    change s.Aside (s.testSensors c)
    unfold State.testSensors
    split
    · exact s.findCause_aside _
    · exact .refl s
  | overspeed =>
    change s.Aside (s.testOverspeed c)
    unfold State.testOverspeed
    dsimp only
    split_ifs
    · exact (State.findCause_aside _ _).after (s.aside_of_tmo _)
    · exact s.aside_of_tmo _
    · exact s.aside_of_tmo _

theorem State.takers_aside (c : Completion) {ks : List Taker} (others : ∀ k ∈ ks, k ≠ .ric) (s : State) :
    s.Aside (ks.foldl (fun v k => v.takeCompletion c k) s) := by
  induction ks generalizing s with
  | nil => exact .refl s
  | cons k ks ih =>
    exact (ih (fun l mem => others l (List.mem_cons_of_mem k mem)) _).after
      (State.takeCompletion_aside (others k List.mem_cons_self) c s)

end Sys2Proof.Machine
end

section
/-! The automatic posting itself, and INJECT with it (O46). -/

namespace Sys2Proof.Machine

/-! ### Orders at the tail -/

/-- Orders join at the tail; the first order of an empty queue becomes the head now (R132, R136). -/
def State.joined (os : List Order) (s : State) : State :=
  { s with ric := { s.ric with
      queue := s.ric.queue ++ os
      bound := if s.ric.queue.isEmpty && !os.isEmpty then s.capture else s.ric.bound } }

theorem State.joined_nil (s : State) : s.joined [] = s := by
  simp [State.joined]

theorem Ric.room_known {r : Ric} {contents : Four Nat} (known : r.contents = some contents) (capacity : Nat) (j : Fin 4) :
    r.room capacity j = some (gramsOfRoom capacity contents r.queue j) := by
  rw [Ric.room, Ric.mass, known]
  rfl

/-- One mass of a posting (R136). -/
theorem State.placeMassIfFree_eq {s : State} {contents : Four Nat} (known : s.ric.contents = some contents)
    (fits : s.ric.queue.length ≤ 8) (j : Fin 4) (m : Nat) : s.placeMassIfFree j m =
      s.joined (orderFor (gramsOfRoom s.capacity contents s.ric.queue j) j m s.ric.queue) := by
  have room := Ric.room_known known s.capacity j
  unfold State.placeMassIfFree
  split
  · next free =>
    have entry : s.ric.queue.length ≠ 8 := Nat.ne_of_lt free
    unfold State.placeMass orderFor
    rw [room, Option.getD_some]
    by_cases skips : m < 10 ∨ gramsOfRoom s.capacity contents s.ric.queue j = 0
    · rw [if_pos (by simpa using skips), if_pos (skips.elim Or.inl fun h => Or.inr (Or.inl h)), State.joined_nil]
    · rw [if_neg (by simpa using skips), if_neg fun h => h.elim (fun h => skips (Or.inl h))
        fun h => h.elim (fun h => skips (Or.inr h)) entry]
      simp [State.enqueue, State.joined]
  · next full =>
    have entries : s.ric.queue.length = 8 := Nat.le_antisymm fits (Nat.not_lt.1 full)
    rw [orderFor, if_pos (Or.inr (Or.inr entries)), State.joined_nil]

theorem orderFor_waits {room m : Nat} {j : Fin 4} {q : List Order} : ∀ o ∈ orderFor room j m q, o.state = .waiting := by
  unfold orderFor
  split <;> simp

theorem orderFor_length {room m : Nat} {j : Fin 4} {q : List Order} (fits : q.length ≤ 8) :
    (q ++ orderFor room j m q).length ≤ 8 := by
  unfold orderFor
  split
  · simpa using fits
  · next placed =>
    have free : q.length ≠ 8 := fun full => placed (Or.inr (Or.inr full))
    rw [List.length_append, List.length_singleton]
    omega

/-- An order for one chamber takes no room of another. -/
theorem gramsOfRoom_other {j k : Fin 4} (apart : j ≠ k) (capacity : Nat) (contents : Four Nat) (q : List Order) (room m : Nat) :
    gramsOfRoom capacity contents (q ++ orderFor room j m q) k = gramsOfRoom capacity contents q k := by
  have noOrders : (orderFor room j m q).filter (fun o => o.chamber = k) = [] := by
    unfold orderFor
    split <;> simp [apart]
  rw [gramsOfRoom, List.filter_append, noOrders, List.append_nil, gramsOfRoom]

/-! ### The two chambers of a correction -/

theorem allocate_chambers (u angle : Nat) :
    (allocate u angle).first.val = ((angle + 128) % 256 + 224) % 256 / 64 ∧
    (allocate u angle).second.val = ((allocate u angle).first.val + 1) % 4 ∧
    (allocate u angle).first ≠ (allocate u angle).second := by
  have apart : ∀ j : Fin 4, j ≠ j + 1 := by decide
  refine ⟨?_, Fin.val_add _ _, apart _⟩
  change ((angle + 128) % 256 + 256 - 32) % 256 / 64 % 4 = _
  omega

/-! ### The posting -/

/-- The orders that a posting of `a` adds to a queue (R135, R136). -/
def postedOrders (capacity : Nat) (contents : Four Nat) (q : List Order) (a : Allocation) : List Order :=
  orderFor (gramsOfRoom capacity contents q a.first) a.first a.firstMass q ++
    orderFor (gramsOfRoom capacity contents q a.second) a.second a.secondMass
      (q ++ orderFor (gramsOfRoom capacity contents q a.first) a.first a.firstMass q)

theorem State.joined_joined (os ps : List Order) (s : State) : (s.joined os).joined ps = s.joined (os ++ ps) := by
  cases q : s.ric.queue <;> cases os <;> simp [State.joined, q, State.capture, State.inReset]

/-- Both masses of a posting, placed one after the other. -/
theorem State.placed_both {s : State} {contents : Four Nat} {a : Allocation} (known : s.ric.contents = some contents)
    (fits : s.ric.queue.length ≤ 8) (apart : a.first ≠ a.second) :
    (s.placeMassIfFree a.first a.firstMass).placeMassIfFree a.second a.secondMass =
      s.joined (postedOrders s.capacity contents s.ric.queue a) := by
  rw [State.placeMassIfFree_eq known fits]
  generalize hf : orderFor (gramsOfRoom s.capacity contents s.ric.queue a.first) a.first a.firstMass s.ric.queue = first
  have room : gramsOfRoom s.capacity contents (s.ric.queue ++ first) a.second =
      gramsOfRoom s.capacity contents s.ric.queue a.second := by
    rw [← hf]
    exact gramsOfRoom_other apart _ _ _ _ _
  have entries : (s.ric.queue ++ first).length ≤ 8 := by
    rw [← hf]
    exact orderFor_length fits
  have second := State.placeMassIfFree_eq (s := s.joined first) known entries a.second a.secondMass
  have same : (s.joined first).capacity = s.capacity := rfl
  have queue : (s.joined first).ric.queue = s.ric.queue ++ first := rfl
  rw [second, same, queue, room, State.joined_joined, postedOrders, hf]

theorem State.autoPost_full {s : State} {contents : Four Nat} (may : s.mayPost = true)
    (known : s.ric.contents = some contents)
    (first : gramsOfRoom s.capacity contents s.ric.queue (allocate (s.ibe.uS.getD 0) (s.ibe.angle.getD 0)).first = 0)
    (second : gramsOfRoom s.capacity contents s.ric.queue (allocate (s.ibe.uS.getD 0) (s.ibe.angle.getD 0)).second = 0) :
    s.autoPost = s.post .ringExhausted := by
  have noRoom {j : Fin 4} (zero : gramsOfRoom s.capacity contents s.ric.queue j = 0) :
      s.ric.room s.capacity j = some 0 := by rw [Ric.room_known known, zero]
  rw [State.autoPost, if_pos may]
  exact if_pos ⟨noRoom first, noRoom second⟩

theorem State.autoPost_room {s : State} {contents : Four Nat} (may : s.mayPost = true)
    (known : s.ric.contents = some contents) (fits : s.ric.queue.length ≤ 8)
    (room : ¬(gramsOfRoom s.capacity contents s.ric.queue (allocate (s.ibe.uS.getD 0) (s.ibe.angle.getD 0)).first = 0 ∧
      gramsOfRoom s.capacity contents s.ric.queue (allocate (s.ibe.uS.getD 0) (s.ibe.angle.getD 0)).second = 0)) :
    s.autoPost =
      let os := postedOrders s.capacity contents s.ric.queue (allocate (s.ibe.uS.getD 0) (s.ibe.angle.getD 0))
      if os = [] then s.joined os else (s.joined os).ordersTaken := by
  obtain ⟨-, -, apart⟩ := allocate_chambers (s.ibe.uS.getD 0) (s.ibe.angle.getD 0)
  have some_zero (n : Nat) : (some n = some 0) = (n = 0) := by simp
  unfold State.autoPost
  simp only [may, if_true, Ric.room_known known, some_zero, if_neg room, State.placed_both known fits apart]
  generalize postedOrders s.capacity contents s.ric.queue _ = os
  cases os with
  | nil => simp [State.joined]
  | cons o os => simp [State.joined]

theorem orderFor_noRoom (j : Fin 4) (m : Nat) (q : List Order) : orderFor 0 j m q = [] := by
  simp [orderFor]

/-- What a posting makes of ring, notices and ring-quiet count. -/
structure State.PostsOrders (os : List Order) (full : Prop) (s t : State) : Prop where
  queue : t.ric.queue = s.ric.queue ++ os
  fullQueue : full → os = []
  noticed : full → t.exhausted = true
  quiet : ¬ full → t.exhausted = s.exhausted
  bound : s.ric.queue = [] → os ≠ [] → t.ric.bound = s.capture
  ringQuiet : os ≠ [] → t.ibe.ringQuiet = 0
  opening : t.ric.opening = s.ric.opening
  waiting : ∀ o ∈ os, o.state = .waiting

theorem State.ordersTaken_exhausted (s : State) : s.ordersTaken.exhausted = s.exhausted :=
  State.testLatch_exhausted _

theorem postedOrders_waiting {capacity : Nat} {contents : Four Nat} {q : List Order} {a : Allocation} :
    ∀ o ∈ postedOrders capacity contents q a, o.state = .waiting := by
  intro o mem
  rcases List.mem_append.1 mem with first | second
  · exact orderFor_waits o first
  · exact orderFor_waits o second

theorem State.autoPost_posts {s : State} {contents : Four Nat} (may : s.mayPost = true)
    (known : s.ric.contents = some contents) (fits : s.ric.queue.length ≤ 8) :
    let a := allocate (s.ibe.uS.getD 0) (s.ibe.angle.getD 0)
    s.PostsOrders (postedOrders s.capacity contents s.ric.queue a)
      (gramsOfRoom s.capacity contents s.ric.queue a.first = 0 ∧ gramsOfRoom s.capacity contents s.ric.queue a.second = 0)
      s.autoPost := by
  intro a
  by_cases full : gramsOfRoom s.capacity contents s.ric.queue a.first = 0 ∧
      gramsOfRoom s.capacity contents s.ric.queue a.second = 0
  · have noOrders : postedOrders s.capacity contents s.ric.queue a = [] := by
      rw [postedOrders, full.1, full.2, orderFor_noRoom, orderFor_noRoom, List.append_nil]
    rw [State.autoPost_full may known full.1 full.2, noOrders]
    exact ⟨(List.append_nil _).symm, fun _ => rfl, fun _ => rfl, fun room => absurd full room, fun _ new => absurd rfl new,
      fun new => absurd rfl new, rfl, fun o mem => nomatch mem⟩
  · rw [State.autoPost_room may known fits full]
    dsimp only
    have waits := postedOrders_waiting (capacity := s.capacity) (contents := contents) (q := s.ric.queue) (a := a)
    generalize postedOrders s.capacity contents s.ric.queue a = os at waits ⊢
    split
    · next noOrders =>
      rw [noOrders, State.joined_nil]
      exact ⟨(List.append_nil _).symm, fun _ => rfl, fun h => absurd h full, fun _ => rfl, fun _ new => absurd rfl new,
        fun new => absurd rfl new, rfl, fun o mem => nomatch mem⟩
    · next new =>
      have ring : (s.joined os).ordersTaken.ric = (s.joined os).ric := by simp
      refine ⟨by rw [ring]; rfl, fun h => absurd h full, fun h => absurd h full, fun _ => ?_, fun empty _ => ?_, fun _ => ?_,
        by rw [ring]; rfl, waits⟩
      · exact State.ordersTaken_exhausted _
      · rw [ring]
        simp [State.joined, empty, new]
      · rw [State.ordersTaken_ibe]

/-! ### The posting within its completion -/

theorem takersInOrder_nodup (order : List Taker) : (takersInOrder order).Nodup := by
  have all : allTakers.Nodup := by decide
  refine List.Nodup.append (List.nodup_dedup _) (all.filter _) fun k named other => ?_
  have absent := (List.mem_filter.1 other).2
  simp only [List.contains_eq_mem, Bool.not_eq_true', decide_eq_false_iff_not] at absent
  exact absent (List.mem_dedup.1 named)

/-- RIC takes a completion once, between the blocks before it and those after it. -/
theorem takersInOrder_ric (order : List Taker) : ∃ front back, takersInOrder order = front ++ .ric :: back ∧
    (∀ k ∈ front, k ≠ .ric) ∧ ∀ k ∈ back, k ≠ .ric := by
  have mem : Taker.ric ∈ takersInOrder order := by
    unfold takersInOrder
    by_cases named : Taker.ric ∈ order <;> simp [named, allTakers]
  obtain ⟨front, back, split⟩ := List.append_of_mem mem
  have once := takersInOrder_nodup order
  rw [split, List.nodup_middle, List.nodup_cons] at once
  refine ⟨front, back, split, fun k memk same => ?_, fun k memk same => ?_⟩
  · exact once.1 (List.mem_append_left _ (same ▸ memk))
  · exact once.1 (List.mem_append_right _ (same ▸ memk))

/-- Windows and bleed timers are nothing to the orders. -/
theorem State.windows_aside (index p : Nat) (s : State) : s.Aside ((s.newWindows index p).bleedTimers) := by
  have orders : s.ric.SameOrders s.capture ((s.newWindows index p).bleedTimers).ric := by
    unfold State.bleedTimers
    split <;> exact ⟨rfl, rfl, rfl, rfl, Or.inl rfl⟩
  exact ⟨⟨by simp, by simp, by simp, by simp, by simp, by simp, State.exhausted_congr (by simp), fun _ => orders⟩, by simp,
    by simp⟩

/-- Whatever the order of the blocks, RIC's test stands between work that has no part in the posting. -/
theorem State.takers_split (c : Completion) (order : List Taker) (s : State) :
    ∃ y, s.Aside y ∧ y.autoPost.Aside ((takersInOrder order).foldl (fun v k => v.takeCompletion c k) s) := by
  obtain ⟨front, back, split, before, after⟩ := takersInOrder_ric order
  rw [split, List.foldl_append, List.foldl_cons]
  have reached := State.takers_aside c before s
  generalize front.foldl (fun v k => v.takeCompletion c k) s = x at reached ⊢
  exact ⟨_, (State.windows_aside _ _ _).after ((State.refreeze_aside _).after reached), State.takers_aside c after _⟩

/-- The active plateau's autoBalance is part of its core. -/
theorem State.active_autoBalance {s t : State}
    (cores : t.spm.plateaus.map Plateau.core = s.spm.plateaus.map Plateau.core) :
    t.active.any Plateau.autoBalance = s.active.any Plateau.autoBalance := by
  have found := find_core Plateau.core_isActive cores
  have core (o : Option Plateau) : o.any Plateau.autoBalance = (o.map Plateau.core).any Plateau.autoBalance := by
    cases o <;> simp
  rw [core, core s.active, State.active, found, State.active]

/-- What an automatic posting asks of the ring, the store and the plan (R134), with the ring at rest. -/
structure State.RingReady (contents : Four Nat) (s : State) : Prop where
  auto : s.active.any Plateau.autoBalance = true
  waits : s.ric.waits
  flush : s.ric.flush = false
  known : s.ric.contents = some contents
  store : s.cls.defaulted = false
  fits : s.ric.queue.length ≤ 8
  partner : ∀ o ∈ s.ric.queue, o.origin = .partner

/-- What the state after a completion shows of an estimate that calls for a correction (R134). -/
structure State.CallsFor (u angle : Nat) (s t : State) : Prop where
  running : t.spm.plan = .running
  settled : t.settled = true
  uS : t.ibe.uS = some u
  angle : t.ibe.angle = some angle
  uAuto : s.uAuto ≤ u
  low : s.sinjLo ≤ t.rpm
  high : t.rpm ≤ s.sinjHi

/-- RIC's test passes where the state after the completion calls for a correction. -/
theorem State.mayPost_of_calls {s y t : State} {contents : Four Nat} {u angle : Nat} (ready : s.RingReady contents)
    (calls : s.CallsFor u angle t) (pre : s.Apart y) (post : y.autoPost.Aside t) :
    y.mayPost = true ∧ y.ibe.uS = some u ∧ y.ibe.angle = some angle := by
  obtain ⟨auto, waits, flush, known, store, -, partner⟩ := ready
  obtain ⟨running, settled, uS, ang, uAuto, low, high⟩ := calls
  obtain ⟨queue, contents', flush', -, -⟩ := pre.ring waits
  obtain ⟨-, -, -, -, -, rtb, -, -, spm, -⟩ := y.autoPost_frame
  have estimate : t.ibe = { y.ibe with ringQuiet := y.autoPost.ibe.ringQuiet, latch := y.autoPost.ibe.latch } :=
    post.ibe.trans y.autoPost_ibe
  rw [estimate] at uS ang
  have plan : y.spm.plan = .running := by
    rw [← spm]
    exact post.plan running
  have settles : y.settled = true := by
    rw [State.settled, estimate, post.guard, spm] at settled
    exact settled
  have speed : t.rpm = y.rpm := by rw [State.rpm, post.rtb, rtb, State.rpm]
  have balance : y.active.any Plateau.autoBalance = true := by rw [State.active_autoBalance pre.cores, auto]
  have imbalance : y.ibe.uS = some u := uS
  rw [speed] at low high
  refine ⟨?_, imbalance, ang⟩
  have lowest : y.sinjLo ≤ y.rpm := by simpa only [State.sinjLo, pre.cls] using low
  have highest : y.rpm ≤ y.sinjHi := by simpa only [State.sinjHi, pre.cls] using high
  have least : y.uAuto ≤ u := by simpa only [State.uAuto, pre.cls] using uAuto
  have noAuto : y.ric.queue.all (fun o => o.origin ≠ .auto) = true := by
    rw [queue, List.all_eq_true]
    intro o mem
    simp [partner o mem]
  simp only [State.mayPost, plan, balance, settles, imbalance, Option.getD_some, least, lowest, highest, noAuto, flush',
    flush, contents', known, pre.cls, store, Option.isSome_some, decide_true, Bool.not_false, Bool.and_true]

/-- The orders posted, through the blocks that take the completion after RIC. -/
theorem State.PostsOrders.aside {os : List Order} {full : Prop} {s z t : State} (h : s.PostsOrders os full z)
    (waits : s.ric.waits) (after : z.Aside t) (capture : z.capture = s.capture) : s.PostsOrders os full t := by
  have resting : z.ric.waits := by
    refine ⟨h.opening.trans waits.1, fun o mem => ?_⟩
    rw [h.queue] at mem
    exact (List.mem_append.1 mem).elim (waits.2 o) (h.waiting o)
  obtain ⟨queue, -, -, opening, bound⟩ := after.ring resting
  refine ⟨queue.trans h.queue, h.fullQueue, fun f => after.exhausted.trans (h.noticed f),
    fun f => after.exhausted.trans (h.quiet f), fun empty new => ?_, fun new => ?_, opening.trans h.opening, h.waiting⟩
  · rcases bound with same | here
    · exact same.trans (h.bound empty new)
    · exact here.trans capture
  · rw [after.ibe]
    exact h.ringQuiet new

/-- The posting of a completion, read from the states before and after it (R135, R136). -/
theorem State.posts_of_calls {s y t : State} {contents : Four Nat} {u angle now : Nat} (ready : s.RingReady contents)
    (calls : s.CallsFor u angle t) (pre : s.Apart y) (post : y.autoPost.Aside t) (here : now % 16777216 = s.capture) :
    s.posts u angle now contents s.ric.queue t := by
  obtain ⟨may, uS, ang⟩ := State.mayPost_of_calls ready calls pre post
  obtain ⟨time, rst, -⟩ := y.autoPost_frame
  have capture : y.autoPost.capture = y.capture := by
    rw [State.capture, State.inReset, time, rst, State.capture, State.inReset]
  have ring := pre.ring ready.waits
  have known : y.ric.contents = some contents := ring.contents.trans ready.known
  have posted := (State.autoPost_posts may known (by rw [ring.queue]; exact ready.fits)).aside (ring.waits ready.waits) post
    capture
  have capacity : y.capacity = s.capacity := by simp only [State.capacity, pre.cls]
  obtain ⟨first, second, -⟩ := allocate_chambers u angle
  simp only [uS, ang, Option.getD_some, capacity, ring.queue] at posted
  obtain ⟨queue, fullQueue, noticed, quiet, bound, ringQuiet, -, -⟩ := posted
  rw [ring.queue] at queue
  have joined := List.append_assoc s.ric.queue
    (orderFor (gramsOfRoom s.capacity contents s.ric.queue (allocate u angle).first) (allocate u angle).first
      (allocate u angle).firstMass s.ric.queue)
  have same (noOrders : postedOrders s.capacity contents s.ric.queue (allocate u angle) = []) :=
    (joined _).trans ((congrArg (s.ric.queue ++ ·) noOrders).trans (List.append_nil _))
  refine ⟨(allocate u angle).first, (allocate u angle).second, first, second, fun noFirst noSecond => ⟨?_, ?_⟩,
    fun room => ⟨?_, ?_⟩, fun empty new => ?_, fun new => ?_⟩
  · rw [queue, fullQueue ⟨noFirst, noSecond⟩, List.append_nil]
  · exact noticed ⟨noFirst, noSecond⟩
  · exact queue.trans (joined _).symm
  · exact (quiet room).trans pre.exhausted
  · rw [here, ← pre.capture]
    exact bound (ring.queue.trans empty) fun noOrders => new ((same noOrders).trans empty)
  · exact ringQuiet fun noOrders => new (same noOrders)

theorem State.estimate_exhausted (c : Completion) (s : State) : (s.estimate c).exhausted = s.exhausted := by
  have counted (t : State) : t.recordULast.exhausted = t.exhausted := by
    unfold State.recordULast
    split <;> rfl
  unfold State.estimate
  split_ifs
  · exact State.testLatch_exhausted _
  · exact State.testLatch_exhausted _
  · exact (State.testLatch_exhausted _).trans (counted (s.validRevolution c))
  · exact State.testLatch_exhausted _

/-- What comes before the blocks take a completion has no part in the posting but through Rotation Timebase and estimate. -/
theorem State.closingEdge_split (last : Nat) (order : List Taker) (s : State) :
    ∃ y, s.Apart y ∧ y.autoPost.Aside (s.closingEdge last order) := by
  have closes (p : Nat) : s.Apart (s.closeRevolution p) := State.apart_of_frame (by simp) (State.exhausted_congr (by simp))
  have observes (t : State) : t.Apart (t.observeRevolution.applyStatic.clearSums) :=
    State.apart_of_frame (by simp) (State.exhausted_congr (by simp))
  have estimates (c : Completion) (t : State) : t.Apart (t.estimate c) :=
    State.apart_of_frame (by simp) (t.estimate_exhausted c)
  have issues {p : Nat} {t : State} (before : s.Apart t) : ∃ y, s.Apart y ∧ y.autoPost.Aside (t.issueCompletion p order) := by
    unfold State.issueCompletion
    dsimp only
    obtain ⟨y, reached, after⟩ := State.takers_split (t.observeRevolution.completionOf p t.observeRevolution.capture) order
      ((t.observeRevolution.applyStatic.clearSums).estimate (t.observeRevolution.completionOf p t.observeRevolution.capture))
    exact ⟨y, ((before.trans (observes t)).trans (estimates _ _)).trans reached.toApart, after⟩
  unfold State.closingEdge
  dsimp only
  split
  · exact issues ((closes _).trans (State.turningReport_aside _).toApart)
  · exact issues (closes _)

/-- An edge of the selected direction that is not within the noise interval of the last one closes a revolution (R3, R5). -/
theorem indexEdge_closes {after l : Nat} {s : State} (live : s.inReset = false) (last : s.rtb.lastIndex = some l)
    (noise : 20000 ≤ sub24 (s.elapse after).capture l) (order : List Taker) :
    exec (.indexEdge after s.risingSelected order) s = .next ((s.elapse after).closingEdge l order) := by
  have lastElapsed : (s.elapse after).rtb.lastIndex = some l := last
  have selected : s.risingSelected = (s.elapse after).risingSelected := rfl
  have takes : (s.elapse after).takesEdge s.risingSelected = true := by
    have interval : noiseInterval ≤ sub24 (s.elapse after).capture l := noise
    simp only [State.takesEdge, lastElapsed, ← selected, interval, decide_true, Bool.and_self]
  have edge : (s.elapse after).indexEdge s.risingSelected order = (s.elapse after).closingEdge l order := by
    rw [State.indexEdge, if_pos takes, lastElapsed]
  rw [← edge]
  change fromOutside after _ s = _
  rw [fromOutside, live]
  rfl

/-- Settles O46: the tests of Table 7-6 in their order, one pair and many at the ring, and the posting between the blocks of a
completion (`State.posts_of_calls`). -/
theorem injectQueuesAnOrder : Obligations.InjectQueuesAnOrder := by
  refine ⟨fun after r s port ready => ⟨fun counts => ⟨fun flush => ?_, fun flush store => ?_, fun flush store out => ?_,
    fun flush store chambers unknown => ?_, fun flush store chambers known empty => ?_⟩,
    fun j grams cts params flush store known asked entries => ?_, fun counts passed => ?_⟩,
    fun after l order contents s live last noise running auto shut flush known store fits waiting => ?_⟩
  · exact inject_refused counts port ready after (s.injectRefused_flush flush _)
  · exact inject_refused counts port ready after (s.injectRefused_store flush store _)
  · exact inject_refused counts port ready after (s.injectRefused_chamber flush store out)
  · exact inject_refused counts port ready after (s.injectRefused_unknown flush store chambers unknown)
  · exact inject_refused counts port ready after (s.injectRefused_grams flush store chambers known empty)
  · have pair : OnePair j grams cts r s := ⟨port, ready, params, flush, store, known, asked⟩
    refine ⟨fun room => ?_, fun front last room queue waiting chamber partner => ?_, fun room apart =>
      ⟨fun full => ?_, fun free => ?_⟩⟩
    · exact inject_refused pair.counts port ready after (pair.noRoom room)
    · have made := pair.merges queue waiting chamber partner
      have passed : s.injectRefused (pairsOf r.params) = none := by
        refine State.injectRefused_passed pair.opens ?_ ?_
        · rw [made]
          exact decide_eq_false (Nat.ne_of_gt room)
        · rw [made]
          simpa [queue] using entries
      obtain ⟨t, asks, reply, ring, estimate, plan, bands, sensing⟩ := inject_queues pair.counts port ready after passed
      have head : s.ric.queue.isEmpty = false := by simp [queue]
      rw [made, head] at ring
      rw [made] at reply
      refine ⟨t, asks, reply.trans ?_, ring, estimate, plan, bands, sensing⟩
      simp only [queue, List.length_append, List.length_singleton]
      rfl
    · refine inject_refused pair.counts port ready after (State.injectRefused_full pair.opens (Or.inr ?_))
      rw [pair.joins apart, List.length_append, full]
      exact Nat.lt_succ_self 8
    · have made := pair.joins apart
      have passed : s.injectRefused (pairsOf r.params) = none := by
        refine State.injectRefused_passed pair.opens ?_ ?_
        · rw [made]
          exact decide_eq_false (Nat.ne_of_gt room)
        · rw [made, List.length_append]
          exact free
      obtain ⟨t, asks, reply, ring, estimate, plan, bands, sensing⟩ := inject_queues pair.counts port ready after passed
      rw [made] at reply ring
      refine ⟨t, asks, reply.trans ?_, ring, estimate, plan, bands, sensing⟩
      rw [adjustedIf_eq, List.length_append]
      simp only [decide_eq_true_eq]
      rfl
  · obtain ⟨t, asks, reply, ring, -, plan, bands, sensing⟩ := inject_queues counts port ready after passed
    exact ⟨t, asks, by rw [ring], reply.trans (by rw [adjustedIf_eq]), by rw [ring], by rw [ring], plan, bands, sensing⟩
  · refine ⟨_, indexEdge_closes live last noise order, fun u angle plan settled uS ang uAuto low high => ?_⟩
    obtain ⟨y, pre, post⟩ := State.closingEdge_split l order (s.elapse after)
    have ready : (s.elapse after).RingReady contents :=
      ⟨auto, ⟨shut, fun o mem => (waiting o mem).2⟩, flush, known, store, fits, fun o mem => (waiting o mem).1⟩
    have here : (s.time + after) % 16777216 = (s.elapse after).capture := by
      rw [State.capture, show (s.elapse after).inReset = false from live]
      rfl
    exact State.posts_of_calls (s := s.elapse after) ready ⟨plan, settled, uS, ang, uAuto, low, high⟩ pre post here

end Sys2Proof.Machine
end

section
/-! The band table as a list: its order and its edges through placing, merging and the merge chain (R60 to R65). -/

namespace Sys2Proof.Machine

/-! ### Edges -/

theorem Band.overlaps_iff (a b : Band) : a.overlaps b = true ↔ a.lower ≤ b.upper ∧ b.lower ≤ a.upper := by
  simp [Band.overlaps]

theorem Band.apart_iff (a b : Band) : a.overlaps b = false ↔ a.upper < b.lower ∨ b.upper < a.lower := by
  rw [← Bool.not_eq_true, Band.overlaps_iff]
  omega

theorem Band.overlaps_symm {a b : Band} (h : a.overlaps b = false) : b.overlaps a = false := by
  rw [Band.apart_iff] at *
  exact h.symm

theorem Band.near_iff (a b : Band) : a.near b = true ↔ a.lower ≤ b.upper + 20 ∧ b.lower ≤ a.upper + 20 := by
  simp [Band.near]

/-- Spans that overlap are near (R60). -/
theorem Band.apart_of_not_near {a b : Band} (h : a.near b = false) : a.overlaps b = false := by
  rw [← Bool.not_eq_true, Band.near_iff] at h
  rw [Band.apart_iff]
  omega

/-- The edges and the peak of a band of the table for an Sdist, whatever its slot (R60, Table 4-2). -/
def Band.edgesFit (sdist : Nat) (b : Band) : Prop :=
  sdist + 30 ≤ b.lower ∧ b.lower < b.upper ∧ b.upper ≤ 1200 ∧ 1 ≤ b.peak ∧ b.peak ≤ 9999

theorem Band.fits_iff (sdist : Nat) (b : Band) : b.fits sdist = true ↔ b.id < 6 ∧ b.edgesFit sdist := by
  simp only [Band.fits, Band.edgesFit, between, Bool.and_eq_true, decide_eq_true_eq, and_assoc]
  exact Iff.rfl

/-- A band takes in another: its edges, its peak and the rank of its origin (R62). -/
structure Band.Covers (a b : Band) : Prop where
  lower : a.lower ≤ b.lower
  upper : b.upper ≤ a.upper
  peak : b.peak ≤ a.peak
  origin : a.origin.code ≤ b.origin.code

theorem Band.Covers.refl (a : Band) : a.Covers a := ⟨le_rfl, le_rfl, le_rfl, le_rfl⟩

theorem Band.Covers.trans {a b c : Band} (h : a.Covers b) (k : b.Covers c) : a.Covers c :=
  ⟨h.lower.trans k.lower, k.upper.trans h.upper, k.peak.trans h.peak, h.origin.trans k.origin⟩

theorem Origin.higher_code (a b : Origin) : (a.higher b).code = min a.code b.code := by
  cases a <;> cases b <;> rfl

@[simp] theorem Band.merge_id (recv inc : Band) : (recv.merge inc).id = recv.id := rfl

theorem Band.merge_covers (recv inc : Band) : (recv.merge inc).Covers recv ∧ (recv.merge inc).Covers inc := by
  have origin : (recv.merge inc).origin.code = min recv.origin.code inc.origin.code := Origin.higher_code _ _
  exact ⟨⟨Nat.min_le_left _ _, Nat.le_max_left _ _, Nat.le_max_left _ _, origin ▸ Nat.min_le_left _ _⟩,
    ⟨Nat.min_le_right _ _, Nat.le_max_right _ _, Nat.le_max_right _ _, origin ▸ Nat.min_le_right _ _⟩⟩

theorem Band.merge_edgesFit {sdist : Nat} {recv inc : Band} (h : recv.edgesFit sdist) (k : inc.edgesFit sdist) :
    (recv.merge inc).edgesFit sdist := by
  unfold Band.edgesFit Band.merge at *
  dsimp only
  omega

/-! ### Slots -/

/-- The ids of a table rise. -/
def idsRise (bs : List Band) : Prop := bs.Pairwise (fun a b => a.id < b.id)

/-- No two bands of a table overlap or touch (R60). -/
def bandsApart (bs : List Band) : Prop := bs.Pairwise (fun a b => a.overlaps b = false)

/-- In a table whose ids rise, an id names one band. -/
theorem idsRise.unique {bs : List Band} (rise : idsRise bs) {a b : Band} (ha : a ∈ bs) (hb : b ∈ bs) (same : a.id = b.id) :
    a = b := by
  have nodup : (bs.map Band.id).Nodup := List.pairwise_map.2 (rise.imp fun h => Nat.ne_of_lt h)
  exact List.inj_on_of_nodup_map nodup ha hb same

theorem bandAt_mem {bs : List Band} (rise : idsRise bs) {b : Band} (mem : b ∈ bs) : bandAt bs b.id = some b := by
  unfold bandAt
  cases found : bs.find? (fun a => a.id = b.id) with
  | none => exact absurd (List.find?_eq_none.1 found b mem) (by simp)
  | some a =>
    have same : a.id = b.id := by simpa using List.find?_some found
    rw [rise.unique (List.mem_of_find?_eq_some found) mem same]

theorem bandAt_none {bs : List Band} {n : Nat} (free : ∀ b ∈ bs, b.id ≠ n) : bandAt bs n = none :=
  List.find?_eq_none.2 fun b mem => by simpa using free b mem

theorem bandAt_some {bs : List Band} {n : Nat} {b : Band} (found : bandAt bs n = some b) : b ∈ bs ∧ b.id = n :=
  ⟨List.mem_of_find?_eq_some found, by simpa using List.find?_some found⟩

theorem mem_putBand {a b : Band} {bs : List Band} : a ∈ putBand b bs ↔ a = b ∨ (a ∈ bs ∧ a.id ≠ b.id) := by
  simp only [putBand, List.mem_append, List.mem_filter, List.mem_singleton, decide_eq_true_eq, Nat.ne_iff_lt_or_gt]
  tauto

theorem mem_removeBand {a : Band} {n : Nat} {bs : List Band} : a ∈ removeBand n bs ↔ a ∈ bs ∧ a.id ≠ n := by
  simp [removeBand]

theorem removeBand_sublist (n : Nat) (bs : List Band) : (removeBand n bs).Sublist bs := List.filter_sublist

/-- Freeing a band shortens the table. -/
theorem removeBand_length {b : Band} {bs : List Band} (mem : b ∈ bs) : (removeBand b.id bs).length < bs.length :=
  List.length_filter_lt_length_iff_exists.2 ⟨b, mem, by simp⟩

theorem idsRise.putBand {bs : List Band} (rise : idsRise bs) (b : Band) : idsRise (putBand b bs) := by
  refine List.pairwise_append.2 ⟨List.pairwise_append.2 ⟨rise.filter _, List.pairwise_singleton _ _, fun a ha c hc => ?_⟩,
    rise.filter _, fun a ha c hc => ?_⟩
  · simp only [List.mem_filter, decide_eq_true_eq] at ha
    rw [List.mem_singleton.1 hc]
    exact ha.2
  · simp only [List.mem_append, List.mem_filter, List.mem_singleton, decide_eq_true_eq] at ha hc
    rcases ha with ⟨-, below⟩ | rfl
    · exact below.trans hc.2
    · exact hc.2

/-- A band put into a FREE slot joins the others (R60). -/
theorem putBand_perm {b : Band} {bs : List Band} (free : ∀ a ∈ bs, a.id ≠ b.id) : (putBand b bs).Perm (b :: bs) := by
  have above : bs.filter (fun a => b.id < a.id) = bs.filter (fun a => !decide (a.id < b.id)) :=
    List.filter_congr fun a mem => by
      have other := free a mem
      rw [← decide_not, decide_eq_decide]
      omega
  unfold putBand
  rw [above, List.append_assoc]
  exact List.perm_middle.trans ((List.filter_append_perm _ bs).cons b)

theorem bandsApart.putBand {b : Band} {bs : List Band} (apart : bandsApart bs) (free : ∀ a ∈ bs, a.id ≠ b.id)
    (clear : ∀ a ∈ bs, b.overlaps a = false) : bandsApart (putBand b bs) :=
  ((putBand_perm free).pairwise_iff fun h => Band.overlaps_symm h).2 (List.pairwise_cons.2 ⟨clear, apart⟩)

/-- A band put into the slot of another takes its place in the list. -/
theorem putBand_eq_map {b : Band} {bs : List Band} (rise : idsRise bs) (taken : ∃ a ∈ bs, a.id = b.id) :
    putBand b bs = bs.map (fun a => if a.id = b.id then b else a) := by
  induction bs with
  | nil => exact absurd taken (by simp)
  | cons c cs ih =>
    obtain ⟨above, rest⟩ := List.pairwise_cons.1 rise
    by_cases here : c.id = b.id
    · have none (p : Nat → Prop) [DecidablePred p] (h : ∀ n, b.id < n → ¬ p n) : cs.filter (fun a => p a.id) = [] :=
        List.filter_eq_nil_iff.2 fun a mem => by simpa using h _ (here ▸ above a mem)
      have all : cs.filter (fun a => b.id < a.id) = cs :=
        List.filter_eq_self.2 fun a mem => by simpa using here ▸ above a mem
      have others : cs.map (fun a => if a.id = b.id then b else a) = cs :=
        (List.map_congr_left fun a mem => if_neg (by have := above a mem; omega)).trans (List.map_id cs)
      simp [putBand, here, none (· < b.id) (fun n h => by omega), all, others]
    · obtain ⟨a, mem, same⟩ := taken
      have memRest : a ∈ cs := (List.mem_cons.1 mem).resolve_left fun e => here (e ▸ same)
      have below : c.id < b.id := same ▸ above a memRest
      have step : putBand b (c :: cs) = c :: putBand b cs := by
        simp [putBand, below, Nat.not_lt_of_lt below]
      rw [step, ih rest ⟨a, memRest, same⟩, List.map_cons, if_neg here]

/-- Whether a band's old record is freed first makes no difference to the put. -/
theorem putBand_removeBand (b : Band) (bs : List Band) : putBand b (removeBand b.id bs) = putBand b bs := by
  have keeps (p : Band → Bool) (h : ∀ a, p a = true → a.id ≠ b.id) : (removeBand b.id bs).filter p = bs.filter p := by
    rw [removeBand, List.filter_filter]
    exact List.filter_congr fun a _ => by
      cases k : p a
      · rfl
      · simp [h a k]
  unfold putBand
  rw [keeps _ fun a h => by simp at h; omega, keeps _ fun a h => by simp at h; omega]

/-! ### The merge chain -/

/-- What merging makes of a table, overlapping or not: its form, at most as many bands, and every band in one that covers it. -/
structure MergesTo (sdist : Nat) (bs cs : List Band) : Prop where
  rise : idsRise cs
  fits : ∀ c ∈ cs, c.fits sdist = true
  length : cs.length ≤ bs.length
  covers : ∀ a ∈ bs, ∃ c ∈ cs, c.Covers a

theorem MergesTo.trans {sdist : Nat} {bs cs ds : List Band} (h : MergesTo sdist bs cs) (k : MergesTo sdist cs ds) :
    MergesTo sdist bs ds := by
  refine ⟨k.rise, k.fits, k.length.trans h.length, fun a mem => ?_⟩
  obtain ⟨c, memc, first⟩ := h.covers a mem
  obtain ⟨d, memd, second⟩ := k.covers c memc
  exact ⟨d, memd, second.trans first⟩

/-- The pair that the chain takes stands in the table in the order of its ids, and overlaps. -/
theorem overlappingPair_some {bs : List Band} {a b : Band} (found : overlappingPair bs = some (a, b)) :
    [a, b].Sublist bs ∧ a.overlaps b = true := by
  induction bs with
  | nil => exact nomatch found
  | cons c cs ih =>
    unfold overlappingPair at found
    split at found
    · next d hit =>
      obtain ⟨rfl, rfl⟩ := Prod.mk.inj (Option.some.inj found)
      exact ⟨(List.singleton_sublist.2 (List.mem_of_find?_eq_some hit)).cons_cons c, List.find?_some hit⟩
    · obtain ⟨within, overlap⟩ := ih found
      exact ⟨within.cons c, overlap⟩

theorem overlappingPair_none_iff (bs : List Band) : overlappingPair bs = none ↔ bandsApart bs := by
  induction bs with
  | nil => simp [overlappingPair, bandsApart]
  | cons c cs ih =>
    unfold overlappingPair
    rw [bandsApart, List.pairwise_cons, ← bandsApart, ← ih]
    cases hit : cs.find? c.overlaps with
    | none => exact ⟨fun rest => ⟨by simpa using List.find?_eq_none.1 hit, rest⟩, And.right⟩
    | some d =>
      refine ⟨(nomatch ·), fun ⟨clear, _⟩ => ?_⟩
      have overlap : c.overlaps d = true := List.find?_some hit
      exact absurd overlap (by simp [clear d (List.mem_of_find?_eq_some hit)])

/-- A table with no overlap is left as it is (R63). -/
theorem mergeChain_of_apart {bs : List Band} (apart : bandsApart bs) (n : Nat) : mergeChain n bs = bs := by
  cases n with
  | zero => rfl
  | succ n => rw [mergeChain, (overlappingPair_none_iff bs).2 apart]

/-- A band that is merged into the slot of one of the table (R62). -/
theorem putMerged_mergesTo {sdist : Nat} {bs : List Band} {recv inc : Band} (rise : idsRise bs)
    (fits : ∀ b ∈ bs, b.fits sdist = true) (mem : recv ∈ bs) (edges : inc.edgesFit sdist) :
    MergesTo sdist bs (putBand (recv.merge inc) (removeBand recv.id bs)) := by
  obtain ⟨slot, recvEdges⟩ := (Band.fits_iff sdist recv).1 (fits recv mem)
  have merged : (recv.merge inc).fits sdist = true :=
    (Band.fits_iff sdist _).2 ⟨slot, Band.merge_edgesFit recvEdges edges⟩
  have free : ∀ a ∈ removeBand recv.id bs, a.id ≠ (recv.merge inc).id := fun a h => (mem_removeBand.1 h).2
  refine ⟨idsRise.putBand (rise.sublist (removeBand_sublist _ _)) _, fun c memc => ?_, ?_, fun a mema => ?_⟩
  · rcases mem_putBand.1 memc with rfl | ⟨memc, -⟩
    · exact merged
    · exact fits c (mem_removeBand.1 memc).1
  · rw [(putBand_perm free).length_eq, List.length_cons]
    exact removeBand_length mem
  · by_cases same : a.id = recv.id
    · rw [rise.unique mema mem same]
      exact ⟨_, mem_putBand.2 (Or.inl rfl), (Band.merge_covers recv inc).1⟩
    · exact ⟨a, mem_putBand.2 (Or.inr ⟨mem_removeBand.2 ⟨mema, same⟩, same⟩), .refl a⟩

/-- One merge of the chain (R63): the band with the higher id goes into the other, and its slot is FREE. -/
theorem mergePair_mergesTo {sdist : Nat} {bs : List Band} {a b : Band} (rise : idsRise bs)
    (fits : ∀ c ∈ bs, c.fits sdist = true) (pair : [a, b].Sublist bs) :
    let cs := putBand (a.merge b) (removeBand b.id (removeBand a.id bs))
    MergesTo sdist bs cs ∧ cs.length < bs.length := by
  have lt : a.id < b.id := by simpa [idsRise] using rise.sublist pair
  have mema : a ∈ bs := pair.subset (by simp)
  have memb : b ∈ bs := pair.subset (by simp)
  have left : a ∈ removeBand b.id bs := mem_removeBand.2 ⟨mema, Nat.ne_of_lt lt⟩
  have shorter := removeBand_length memb
  have swap : removeBand b.id (removeBand a.id bs) = removeBand a.id (removeBand b.id bs) := by
    simp only [removeBand, List.filter_filter, Bool.and_comm]
  have merges := putMerged_mergesTo (rise.sublist (removeBand_sublist b.id bs))
    (fun c h => fits c (mem_removeBand.1 h).1) left ((Band.fits_iff sdist b).1 (fits b memb)).2
  dsimp only
  rw [swap]
  refine ⟨⟨merges.rise, merges.fits, merges.length.trans shorter.le, fun c memc => ?_⟩, merges.length.trans_lt shorter⟩
  by_cases same : c.id = b.id
  · rw [rise.unique memc memb same]
    exact ⟨_, mem_putBand.2 (Or.inl rfl), (Band.merge_covers a b).2⟩
  · exact merges.covers c (mem_removeBand.2 ⟨memc, same⟩)

theorem mergeChain_mergesTo {sdist : Nat} (n : Nat) {bs : List Band} (rise : idsRise bs)
    (fits : ∀ b ∈ bs, b.fits sdist = true) : MergesTo sdist bs (mergeChain n bs) := by
  induction n generalizing bs with
  | zero => exact ⟨rise, fits, le_rfl, fun a mem => ⟨a, mem, .refl a⟩⟩
  | succ n ih =>
    unfold mergeChain
    split
    · exact ⟨rise, fits, le_rfl, fun a mem => ⟨a, mem, .refl a⟩⟩
    · next a b found =>
      obtain ⟨merges, -⟩ := mergePair_mergesTo rise fits (overlappingPair_some found).1
      exact merges.trans (ih merges.rise merges.fits)

/-- The chain has a round for each band, and each of its merges frees a slot, so it ends with no overlap (R63). -/
theorem mergeChain_apart {sdist : Nat} {n : Nat} {bs : List Band} (rise : idsRise bs)
    (fits : ∀ b ∈ bs, b.fits sdist = true) (rounds : bs.length ≤ n) : bandsApart (mergeChain n bs) := by
  induction n generalizing bs with
  | zero =>
    rw [List.length_eq_zero_iff.1 (Nat.le_zero.1 rounds)]
    exact List.Pairwise.nil
  | succ n ih =>
    unfold mergeChain
    split
    · next none => exact (overlappingPair_none_iff bs).1 none
    · next a b found =>
      obtain ⟨merges, shorter⟩ := mergePair_mergesTo rise fits (overlappingPair_some found).1
      exact ih merges.rise merges.fits (by omega)

/-! ### Tables -/

/-- The band table for an Sdist: ids rising, every band in range, no two that overlap or touch (R60). -/
structure TableFits (sdist : Nat) (bs : List Band) : Prop where
  rise : idsRise bs
  fits : ∀ b ∈ bs, b.fits sdist = true
  apart : bandsApart bs

theorem TableFits.nil (sdist : Nat) : TableFits sdist [] := ⟨List.Pairwise.nil, by simp, List.Pairwise.nil⟩

theorem TableFits.sublist {sdist : Nat} {bs cs : List Band} (h : TableFits sdist bs) (k : cs.Sublist bs) :
    TableFits sdist cs :=
  ⟨h.rise.sublist k, fun b mem => h.fits b (k.subset mem), h.apart.sublist k⟩

/-- A band of the table is the only one of it that it overlaps. -/
theorem TableFits.eq_of_overlaps {sdist : Nat} {bs : List Band} (h : TableFits sdist bs) {a b : Band} (ha : a ∈ bs)
    (hb : b ∈ bs) (overlap : a.overlaps b = true) : a = b := by
  by_contra other
  have symm : Std.Symm fun a b : Band => a.overlaps b = false := ⟨fun _ _ k => Band.overlaps_symm k⟩
  have clear := h.apart.forall ha hb other
  rw [clear] at overlap
  exact nomatch overlap

/-- An incoming span merged into a band of the table, with the chain that follows (R62, R63). -/
theorem TableFits.mergeInto {sdist : Nat} {bs : List Band} (h : TableFits sdist bs) {recv inc : Band} (mem : recv ∈ bs)
    (edges : inc.edgesFit sdist) :
    TableFits sdist (mergeInto recv inc bs) ∧ (mergeInto recv inc bs).length ≤ bs.length ∧
      ∃ c ∈ mergeInto recv inc bs, c.Covers (recv.merge inc) := by
  have put := putMerged_mergesTo h.rise h.fits mem edges
  have chain := mergeChain_mergesTo bs.length put.rise put.fits
  exact ⟨⟨chain.rise, chain.fits, mergeChain_apart put.rise put.fits put.length⟩, chain.length.trans put.length,
    chain.covers _ (mem_putBand.2 (Or.inl rfl))⟩

/-- A band put into a FREE slot, apart from all others. -/
theorem TableFits.putBand {sdist : Nat} {bs : List Band} (h : TableFits sdist bs) {b : Band} (fits : b.fits sdist = true)
    (free : ∀ a ∈ bs, a.id ≠ b.id) (clear : ∀ a ∈ bs, b.overlaps a = false) : TableFits sdist (putBand b bs) := by
  refine ⟨h.rise.putBand b, fun a mem => ?_, h.apart.putBand free clear⟩
  rcases mem_putBand.1 mem with rfl | ⟨mem, -⟩
  · exact fits
  · exact h.fits a mem

theorem freeSlot_spec {bs : List Band} {n : Nat} (found : freeSlot bs = some n) : n < 6 ∧ ∀ a ∈ bs, a.id ≠ n := by
  refine ⟨by simpa [Config.bandSlots] using List.mem_of_find?_eq_some found, ?_⟩
  simpa using List.find?_some found

theorem lowestWhere_some {p : Band → Bool} {bs : List Band} {b : Band} (found : lowestWhere p bs = some b) :
    b ∈ bs ∧ p b = true ∧ ∀ a ∈ bs, p a = true → b.lower ≤ a.lower := by
  have spec := ascending_find_spec p bs
  rw [show (ascending bs).find? p = some b from found] at spec
  exact spec

theorem lowestWhere_none {p : Band → Bool} {bs : List Band} : lowestWhere p bs = none ↔ ∀ b ∈ bs, p b = false := by
  have perm : (ascending bs).Perm bs := List.perm_insertionSort _ bs
  simp [lowestWhere, List.find?_eq_none, perm.mem_iff]

theorem TableFits.placeBand {sdist : Nat} {bs : List Band} (h : TableFits sdist bs) {b : Band} (edges : b.edgesFit sdist) :
    TableFits sdist (placeBand b bs).1 := by
  unfold Machine.placeBand
  split
  · next recv found => exact (h.mergeInto (inc := { b with hits := 1 }) (lowestWhere_some found).1 edges).1
  · next away =>
    split
    · next n found =>
      obtain ⟨slot, free⟩ := freeSlot_spec found
      exact h.putBand ((Band.fits_iff sdist _).2 ⟨slot, edges⟩) free
        fun a mem => Band.apart_of_not_near (lowestWhere_none.1 away a mem)
    · exact h

theorem bandToDisplace_mem {bs : List Band} {d : Band} (found : bandToDisplace bs = some d) : d ∈ bs := by
  have perm : (ascending bs).Perm bs := List.perm_insertionSort _ bs
  have back {p : Band → Bool} (h : (ascending bs).reverse.find? p = some d) : d ∈ bs :=
    perm.mem_iff.1 (List.mem_reverse.1 (List.mem_of_find?_eq_some h))
  unfold bandToDisplace at found
  split at found
  · next b learned => exact back (found ▸ learned)
  · exact back found

theorem TableFits.loadBand {sdist : Nat} {bs : List Band} (h : TableFits sdist bs) {b : Band} (edges : b.edgesFit sdist) :
    TableFits sdist (loadBand b bs).1 := by
  unfold Machine.loadBand
  split
  · next recv found => exact (h.mergeInto (lowestWhere_some found).1 edges).1
  · next away =>
    have clear := lowestWhere_none.1 away
    split
    · next n found =>
      obtain ⟨slot, free⟩ := freeSlot_spec found
      exact h.putBand ((Band.fits_iff sdist _).2 ⟨slot, edges⟩) free clear
    · split
      · next d found =>
        have slot := ((Band.fits_iff sdist d).1 (h.fits d (bandToDisplace_mem found))).1
        exact (h.sublist (removeBand_sublist d.id bs)).putBand ((Band.fits_iff sdist _).2 ⟨slot, edges⟩)
          (fun a mem => (mem_removeBand.1 mem).2) fun a mem => clear a (mem_removeBand.1 mem).1
      · exact h

/-- A band that a new Sdist leaves active keeps its slot and lies within itself (R65). -/
theorem Band.raise_some {sdist : Nat} {b c : Band} (raised : b.raise sdist = some c) :
    c.id = b.id ∧ b.lower ≤ c.lower ∧ sdist + 30 ≤ c.lower ∧ (c = b ∨ c.lower < c.upper) ∧ c.upper = b.upper ∧
      c.peak = b.peak := by
  unfold Band.raise at raised
  split_ifs at raised with high low
  · obtain rfl := Option.some.inj raised
    exact ⟨rfl, le_rfl, high, Or.inl rfl, rfl, rfl⟩
  · obtain rfl := Option.some.inj raised
    exact ⟨rfl, by simp; omega, le_rfl, Or.inr (by simp; omega), rfl, rfl⟩

theorem TableFits.raise {old : Nat} {bs : List Band} (h : TableFits old bs) (sdist : Nat) :
    TableFits sdist (bs.filterMap (Band.raise sdist)) := by
  refine ⟨List.Pairwise.filterMap _ (fun a b lt c hc d hd => ?_) h.rise, fun c mem => ?_,
    List.Pairwise.filterMap _ (fun a b clear c hc d hd => ?_) h.apart⟩
  · rw [(Band.raise_some hc).1, (Band.raise_some hd).1]
    exact lt
  · obtain ⟨b, memb, raised⟩ := List.mem_filterMap.1 mem
    obtain ⟨slot, -, order, upper, peak⟩ := (Band.fits_iff old b).1 (h.fits b memb)
    obtain ⟨id, -, low, edges, upperEq, peakEq⟩ := Band.raise_some raised
    have order : c.lower < c.upper := edges.elim (fun e => e ▸ order) fun lt => lt
    exact (Band.fits_iff sdist c).2 ⟨id ▸ slot, low, order, upperEq ▸ upper, peakEq ▸ peak⟩
  · obtain ⟨-, lowc, -, -, upc, -⟩ := Band.raise_some hc
    obtain ⟨-, lowd, -, -, upd, -⟩ := Band.raise_some hd
    rw [Band.apart_iff] at *
    omega

end Sys2Proof.Machine
end

section
/-! The band table of a state: what keeps it in range, with its open span, at a report, a closing span, a load and a write. -/

namespace Sys2Proof.Machine

/-! ### A state's table and its open span -/

/-- The range of an open span for an Sdist (R68, R69). -/
def spanInRange (sdist : Nat) (span : Option Span) : Prop :=
  ∀ p, span = some p → sdist + 40 ≤ p.low ∧ p.low ≤ p.high ∧ p.low ≤ 1200 ∧ 1 ≤ p.peak ∧ p.peak ≤ 9999

/-- The table and the open span are in range, whatever the plan. -/
structure State.TableSafe (s : State) : Prop where
  table : TableFits s.sdist s.rbt.bands
  span : spanInRange s.sdist s.rbt.span

theorem tableFits_iff (sdist : Nat) (bs : List Band) :
    ((bs.map Band.id).Pairwise (· < ·) && bs.Pairwise (fun a b => a.overlaps b = false) && bs.all (Band.fits sdist)) = true ↔
      TableFits sdist bs := by
  simp only [Bool.and_eq_true, decide_eq_true_eq, List.all_eq_true, List.pairwise_map]
  exact ⟨fun ⟨⟨rise, apart⟩, fits⟩ => ⟨rise, fits, apart⟩, fun h => ⟨⟨h.rise, h.apart⟩, h.fits⟩⟩

theorem State.spanFits_iff (s : State) :
    s.spanFits = true ↔ spanInRange s.sdist s.rbt.span ∧ (s.rbt.span ≠ none → s.spm.plan = .running) := by
  unfold State.spanFits
  cases span : s.rbt.span with
  | none => simp [spanInRange]
  | some p =>
    simp only [spanInRange, Option.some.injEq, forall_eq', between, Bool.and_eq_true, decide_eq_true_eq, ne_eq,
      reduceCtorEq, not_false_eq_true, true_implies]
    tauto

theorem State.bandsSafe_iff (s : State) :
    s.bandsSafe = true ↔ s.TableSafe ∧ (s.rbt.span ≠ none → s.spm.plan = .running) := by
  rw [State.bandsSafe, Bool.and_eq_true, tableFits_iff, State.spanFits_iff, ← and_assoc]
  exact and_congr_left' ⟨fun ⟨table, span⟩ => ⟨table, span⟩, fun h => ⟨h.table, h.span⟩⟩

theorem State.tableSafe_of_safe {s : State} (h : s.bandsSafe = true) : s.TableSafe := (s.bandsSafe_iff.1 h).1

/-- With no span open the plan is nothing to the table. -/
theorem State.bandsSafe_of_closed {s : State} (table : TableFits s.sdist s.rbt.bands) (closed : s.rbt.span = none) :
    s.bandsSafe = true := by
  rw [State.bandsSafe_iff, closed]
  exact ⟨⟨table, by rw [closed]; exact fun _ e => nomatch e⟩, fun h => absurd rfl h⟩

/-- A span is open in a RUNNING plan alone (R68). -/
theorem State.span_closed {s : State} (h : s.bandsSafe = true) (rests : s.spm.plan ≠ .running) : s.rbt.span = none :=
  Decidable.byContradiction fun isOpen => rests ((s.bandsSafe_iff.1 h).2 isOpen)

theorem State.sdist_congr {s t : State} (cls : t.cls = s.cls) : t.sdist = s.sdist := by rw [State.sdist, cls, State.sdist]

theorem State.TableSafe.congr {s t : State} (h : s.TableSafe) (rbt : t.rbt = s.rbt) (sdist : t.sdist = s.sdist) :
    t.TableSafe := by
  refine ⟨?_, ?_⟩ <;> rw [rbt, sdist]
  exacts [h.table, h.span]

/-! ### Closing spans and reports -/

/-- A candidate is in the range of a band (R70). -/
theorem Span.candidate_edgesFit {sdist : Nat} {p : Span} (h : spanInRange sdist (some p)) :
    p.candidate.edgesFit sdist := by
  obtain ⟨low, order, top, peak⟩ := h p rfl
  unfold Band.edgesFit Span.candidate
  dsimp only
  omega

theorem State.TableSafe.closeSpan {s : State} (h : s.TableSafe) : s.closeSpan.TableSafe ∧ s.closeSpan.rbt.span = none := by
  have closed {t : State} (span : t.rbt.span = none) (cls : t.cls = s.cls) (table : TableFits s.sdist t.rbt.bands) :
      t.TableSafe ∧ t.rbt.span = none :=
    ⟨⟨by rw [State.sdist_congr cls]; exact table, by rw [span]; exact fun _ e => nomatch e⟩, span⟩
  unfold State.closeSpan
  split
  · next none => exact ⟨h, none⟩
  · next p found =>
    have placed := h.table.placeBand (Span.candidate_edgesFit (found ▸ h.span))
    dsimp only
    split
    · exact closed rfl rfl h.table
    · split
      · exact closed rfl rfl h.table
      all_goals
        next eq =>
        rw [eq] at placed
        exact closed (by simp [State.withBands]) (by simp) (by simpa [State.withBands] using placed)

/-- After a report a span is open in a RUNNING plan alone, whatever it reports (R68). -/
theorem State.TableSafe.planReport {s : State} (h : s.TableSafe) : s.planReport.bandsSafe = true := by
  unfold State.planReport
  split
  · next active =>
    simp only [State.learningActive, Bool.and_eq_true, decide_eq_true_eq] at active
    exact (State.bandsSafe_iff _).2 ⟨h.congr (by simp) (State.sdist_congr (by simp)), fun _ => by simpa using active.1.1.1.1⟩
  · obtain ⟨safe, closed⟩ := h.closeSpan
    have kept := safe.congr (t := s.closeSpan.refreeze) (by simp) (State.sdist_congr (by simp))
    exact State.bandsSafe_of_closed kept.table (by simpa using closed)

/-! ### Loads and writes -/

theorem bandOfWords_edgesFit {sdist : Nat} {ws : List Word} {b : Band} (given : bandOfWords sdist ws = some b) :
    b.edgesFit sdist := by
  by_cases valid : validBand sdist ws
  · rw [bandOfWords_valid valid] at given
    obtain rfl := Option.some.inj given
    obtain ⟨-, order, top, least, most, low⟩ := valid
    exact ⟨low, order, top, least, most⟩
  · rw [bandOfWords_invalid valid] at given
    exact nomatch given

theorem State.loadBandItem_fits (n : Nat) {s : State} (h : TableFits s.sdist s.rbt.bands) :
    TableFits (s.loadBandItem n).sdist (s.loadBandItem n).rbt.bands := by
  rw [State.sdist_congr (s := s) (by simp)]
  unfold State.loadBandItem
  split
  · exact h
  · next b given =>
    have loaded := h.loadBand (bandOfWords_edgesFit given)
    dsimp only
    split
    · simpa [State.withBands] using loaded
    · exact loaded

theorem State.loadBandItem_span (n : Nat) (s : State) : (s.loadBandItem n).rbt.span = s.rbt.span := by
  unfold State.loadBandItem
  split
  · rfl
  · dsimp only
    split <;> rfl

theorem State.loadBands_fits {s : State} (h : TableFits s.sdist s.rbt.bands) :
    TableFits s.loadBands.sdist s.loadBands.rbt.bands :=
  State.loadBandItem_fits 39 (State.loadBandItem_fits 38 h)

theorem State.loadBands_span (s : State) : s.loadBands.rbt.span = s.rbt.span :=
  (State.loadBandItem_span 39 _).trans (State.loadBandItem_span 38 s)

theorem State.reloadBands_fits {s : State} (h : TableFits s.sdist s.rbt.bands) :
    TableFits s.reloadBands.sdist s.reloadBands.rbt.bands :=
  State.loadBands_fits (s := s.withBands (s.rbt.bands.filter (fun b => b.origin ≠ .calibrated)))
    (h.sublist List.filter_sublist)

/-- An evaluation is nothing to the plan, the ceiling and the notices. -/
theorem State.evaluateGrant_rest (n : Nat) (s : State) :
    (s.evaluateGrant n).spm.plan = s.spm.plan ∧ (s.evaluateGrant n).spm.ceiling = s.spm.ceiling ∧
      (s.evaluateGrant n).lkp.notices = s.lkp.notices := by
  have puts (g : GrantRecord) : (s.putGrant g).spm.plan = s.spm.plan ∧ (s.putGrant g).spm.ceiling = s.spm.ceiling ∧
      (s.putGrant g).lkp.notices = s.lkp.notices := by
    unfold State.putGrant
    split <;> exact ⟨rfl, rfl, rfl⟩
  have moves (m : Nat) (u : State) : (u.speedChanged m).spm.plan = u.spm.plan ∧
      (u.speedChanged m).spm.ceiling = u.spm.ceiling := by
    unfold State.speedChanged
    split <;> exact ⟨rfl, rfl⟩
  have arrives (u : State) : u.arriveAtZero.spm.plan = u.spm.plan ∧ u.arriveAtZero.spm.ceiling = u.spm.ceiling := by
    unfold State.arriveAtZero
    split <;> exact ⟨rfl, rfl⟩
  obtain ⟨plan, ceiling, notices⟩ := puts (s.grantRecord n)
  exact ⟨(arrives _).1.trans ((moves _ _).1.trans plan), (arrives _).2.trans ((moves _ _).2.trans ceiling),
    by simpa [State.evaluateGrant] using notices⟩

end Sys2Proof.Machine
end

section
/-! The band table over the blocks' events: frames, reports, band changes, completions and standstills. -/

namespace Sys2Proof.Machine

/-! ### What keeps a safe table -/

/-- A band table that is safe before is safe after. -/
def State.KeepsBands (s t : State) : Prop := s.bandsSafe = true → t.bandsSafe = true

theorem State.KeepsBands.refl (s : State) : s.KeepsBands s := id

theorem State.KeepsBands.after {s t u : State} (k : t.KeepsBands u) (h : s.KeepsBands t) : s.KeepsBands u :=
  fun safe => k (h safe)

theorem State.keepsBands_of_frame {s t : State} (h : t.rbt = s.rbt ∧ t.cls = s.cls ∧ t.spm.plan = s.spm.plan) :
    s.KeepsBands t := by
  obtain ⟨rbt, cls, plan⟩ := h
  intro safe
  obtain ⟨table, span⟩ := s.bandsSafe_iff.1 safe
  exact t.bandsSafe_iff.2 ⟨table.congr rbt (State.sdist_congr cls), by rwa [rbt, plan]⟩

/-- Work that leaves table and store, whatever it does to the plan, and the report that follows it. -/
theorem State.report_keepsBands {s u : State} (h : u.rbt = s.rbt ∧ u.cls = s.cls) : s.KeepsBands u.planReport :=
  fun safe => ((State.tableSafe_of_safe safe).congr h.1 (State.sdist_congr h.2)).planReport

theorem State.closeSpan_keepsBands (s : State) : s.KeepsBands s.closeSpan := by
  intro safe
  obtain ⟨after, closed⟩ := (State.tableSafe_of_safe safe).closeSpan
  exact State.bandsSafe_of_closed after.table closed

theorem State.TableSafe.changeBands {s : State} (h : s.TableSafe) {bs : List Band} (fits : TableFits s.sdist bs) :
    (s.changeBands bs).TableSafe := by
  unfold State.changeBands
  split
  · exact h
  · have changed : (s.withBands bs).TableSafe := ⟨fits, h.span⟩
    exact State.tableSafe_of_safe (changed.congr (by simp) (State.sdist_congr (by simp))).planReport

/-- A new table that is in range for the Sdist in force may be put (R61). -/
theorem State.changeBands_keepsBands {s : State} {bs : List Band}
    (fits : TableFits s.sdist s.rbt.bands → TableFits s.sdist bs) : s.KeepsBands (s.changeBands bs) := by
  unfold State.changeBands
  split
  · exact .refl s
  · intro safe
    obtain ⟨table, span⟩ := State.tableSafe_of_safe safe
    have changed : (s.withBands bs).TableSafe := ⟨fits table, span⟩
    exact (changed.congr (by simp) (State.sdist_congr (by simp))).planReport

/-! ### Part state, trips and the lid -/

theorem State.post_keepsBands (n : Notice) (s : State) : s.KeepsBands (s.post n) := State.keepsBands_of_frame (by simp)

theorem State.setPart_keepsBands (p : PartState) (s : State) : s.KeepsBands (s.setPart p) := by
  have handed : (s.partHanded p).rbt = s.rbt ∧ (s.partHanded p).cls = s.cls := by
    unfold State.partHanded
    dsimp only
    split <;> simp
  rw [State.setPart_eq]
  refine State.report_keepsBands ?_
  split <;> simpa using handed

/-- Timers of the part state are nothing to the band table. -/
theorem State.setPart_keepsBands_of_frame {s t : State} (h : t.rbt = s.rbt ∧ t.cls = s.cls ∧ t.spm.plan = s.spm.plan)
    (p : PartState) : s.KeepsBands (t.setPart p) :=
  (t.setPart_keepsBands p).after (State.keepsBands_of_frame h)

theorem State.cancelQuiet_keepsBands (s : State) : s.KeepsBands s.cancelQuiet :=
  State.setPart_keepsBands_of_frame (by simp) _

theorem State.wakeSource_keepsBands (isFrame : Bool) (s : State) : s.KeepsBands (s.wakeSource isFrame) := by
  have posts (t : State) : t.KeepsBands (if isFrame then t else t.post .wake) := by
    split
    · exact .refl t
    · exact t.post_keepsBands _
  unfold State.wakeSource
  dsimp only
  split
  · exact (posts _).after (State.setPart_keepsBands_of_frame (by simp) _)
  · exact posts s
  · exact .refl s
  · exact .refl s
  · exact .refl s

theorem State.turningReport_keepsBands (s : State) : s.KeepsBands s.turningReport := by
  unfold State.turningReport
  split
  · exact s.cancelQuiet_keepsBands
  · exact s.wakeSource_keepsBands _

theorem State.handTrip_keepsBands (s : State) : s.KeepsBands s.handTrip := by
  have reported : s.KeepsBands s.tripPlan.refreshGrant.planReport := State.report_keepsBands (by simp)
  unfold State.handTrip
  dsimp only
  split
  · exact (State.cancelQuiet_keepsBands _).after reported
  · exact reported

theorem State.findCause_keepsBands (c : Cause) (s : State) : s.KeepsBands (s.findCause c) := by
  unfold State.findCause
  split
  · exact (State.handTrip_keepsBands _).after (State.keepsBands_of_frame (by simp))
  · split
    · exact .refl s
    · exact State.keepsBands_of_frame (by simp)

/-- A cause that a test finds, or no cause. -/
theorem State.findsIf_keepsBands {s t : State} (h : s.KeepsBands t) (found : Prop) [Decidable found] (c : Cause) :
    s.KeepsBands (if found then t.findCause c else t) := by
  split
  · exact (t.findCause_keepsBands c).after h
  · exact h

theorem State.lidSettles_keepsBands (s : State) : s.KeepsBands s.lidSettles := by
  unfold State.lidSettles State.lockLid State.unlockLid
  dsimp only
  split <;> exact State.report_keepsBands (by simp)

theorem State.strikeSettles_keepsBands (s : State) : s.KeepsBands s.strikeSettles := by
  have settles : s.KeepsBands { s with tmo := { s.tmo with strike := s.strikePin, strikeTimer := none } } :=
    State.keepsBands_of_frame (by simp)
  unfold State.strikeSettles
  dsimp only
  split
  · exact (State.wakeSource_keepsBands _ _).after ((State.findCause_keepsBands _ _).after settles)
  · exact settles

/-! ### Updates and the guard level -/

theorem State.handUpdate_keepsBands (s : State) : s.KeepsBands s.handUpdate := State.report_keepsBands (by simp)

theorem State.orderServing_keepsBands (s : State) : s.KeepsBands s.orderServing := by
  have marks : s.KeepsBands { s with ibe := { s.ibe with injectionMark := true, settle := 0 } } :=
    State.keepsBands_of_frame (by simp)
  unfold State.orderServing
  dsimp only
  split
  · exact (State.handUpdate_keepsBands _).after marks
  · exact marks

theorem State.changeGuard_keepsBands (g : GuardLevel) (s : State) : s.KeepsBands (s.changeGuard g) := by
  unfold State.changeGuard
  split
  · exact .refl s
  · refine State.report_keepsBands ?_
    dsimp only
    split <;> simp

/-! ### Completions and standstills -/

theorem Span.extend_inRange {sdist speed ga : Nat} {span : Option Span} (h : spanInRange sdist span)
    (low : sdist + 40 ≤ speed) (top : speed ≤ 1200) (least : 1 ≤ ga) (most : ga ≤ 9999) :
    spanInRange sdist (some (Span.extend span speed ga)) := by
  intro p e
  obtain rfl := Option.some.inj e
  cases span with
  | none => exact ⟨low, le_rfl, top, least, most⟩
  | some q =>
    obtain ⟨qLow, qOrder, qTop, qLeast, qMost⟩ := h q rfl
    simp only [Span.extend]
    omega

/-- A span is opened or extended at a speed against which learning is active, by a receptance above 0 (R68, R69). -/
theorem State.learn_keepsBands {c : Completion} (speed : c.speed ≤ 1200) (s : State) : s.KeepsBands (s.learn c) := by
  unfold State.learn
  split
  · exact s.closeSpan_keepsBands
  · next active =>
    split
    · exact .refl s
    · generalize hga : apparentReceptance ((s.ibe.orbit.map magnitude).getD 0) (s.ibe.uLast.getD 0) = ga
      have most : ga ≤ 9999 := hga ▸ Nat.min_le_left _ _
      dsimp only
      split
      · next high =>
        intro safe
        simp only [Bool.not_eq_true', Bool.not_eq_false, State.learningActive, Bool.and_eq_true, decide_eq_true_eq] at active
        obtain ⟨⟨⟨⟨running, -⟩, -⟩, low⟩, -⟩ := active
        obtain ⟨table, span⟩ := State.tableSafe_of_safe safe
        exact (State.bandsSafe_iff _).2 ⟨⟨table, Span.extend_inRange span low speed (by omega) most⟩, fun _ => running⟩
      · exact s.closeSpan_keepsBands

theorem State.takeCompletion_keepsBands {c : Completion} (speed : c.speed ≤ 1200) (s : State) (k : Taker) :
    s.KeepsBands (s.takeCompletion c k) := by
  cases k with
  | rbt => exact s.learn_keepsBands speed
  | spm => exact State.report_keepsBands (by simp)
  | ric => exact State.keepsBands_of_frame (by simp [State.takeCompletion])
  | orbit => exact State.findsIf_keepsBands (.refl s) _ _
  | sensors => exact State.findsIf_keepsBands (.refl s) _ _
  | overspeed =>
    have counts (n : Nat) : s.KeepsBands { s with tmo := { s.tmo with overspeed := n } } :=
      State.keepsBands_of_frame (by simp)
    change s.KeepsBands (s.testOverspeed c)
    unfold State.testOverspeed
    split
    · exact State.findsIf_keepsBands (counts _) _ _
    · exact counts 0

theorem foldl_keepsBands {α : Type} {take : State → α → State} (keeps : ∀ (v : State) (k : α), v.KeepsBands (take v k))
    (ks : List α) (s : State) : s.KeepsBands (ks.foldl take s) := by
  induction ks generalizing s with
  | nil => exact .refl s
  | cons k ks ih => exact (ih _).after (keeps s k)

theorem speedOf_le (p : Nat) : speedOf p ≤ 12000 := by
  unfold speedOf
  split
  · exact le_rfl
  · have : 600000000 / p ≤ 600000000 / 50000 := Nat.div_le_div_left (by omega) (by decide)
    omega

theorem State.issueCompletion_keepsBands {s : State} (speed : s.rpm ≤ 1200) (p : Nat) (order : List Taker) :
    s.KeepsBands (s.issueCompletion p order) := by
  have sampled (c : Completion) : s.KeepsBands ((s.observeRevolution.applyStatic.clearSums).estimate c) :=
    State.keepsBands_of_frame (by simp)
  exact (foldl_keepsBands (State.takeCompletion_keepsBands speed) _ _).after (sampled _)

theorem State.indexEdge_keepsBands (rising : Bool) (order : List Taker) (s : State) :
    s.KeepsBands (s.indexEdge rising order) := by
  unfold State.indexEdge
  split
  · split
    · have evaluated := s.firstEdge.evaluateGrant_rest s.firstEdge.spm.grant.speed
      exact State.keepsBands_of_frame ⟨by simp, by simp, evaluated.1.trans (by simp)⟩
    · next last _ =>
      unfold State.closingEdge
      dsimp only
      generalize hp : sub24 s.capture last = p
      have closed : s.KeepsBands (s.closeRevolution p) := State.keepsBands_of_frame (by simp)
      have speed : (s.closeRevolution p).rpm ≤ 1200 := by
        have measured := speedOf_le p
        change speedOf p / 10 ≤ 1200
        omega
      split
      · have turning : (s.closeRevolution p).turningReport.rpm ≤ 1200 := by
          simpa [State.rpm] using speed
        exact (State.issueCompletion_keepsBands turning _ _).after ((State.turningReport_keepsBands _).after closed)
      · exact (State.issueCompletion_keepsBands speed _ _).after closed
  · exact .refl s

theorem State.takeStandstill_keepsBands (s : State) (k : Taker) : s.KeepsBands (s.takeStandstill k) := by
  cases k with
  | rbt => exact s.closeSpan_keepsBands
  | spm =>
    refine State.report_keepsBands (u := State.refreshGrant (State.testWindow _)) ?_
    split <;> simp
  | ric => exact State.keepsBands_of_frame (by simp [State.takeStandstill])
  | orbit => exact .refl s
  | sensors => exact .refl s
  | overspeed => exact State.keepsBands_of_frame (by simp [State.takeStandstill])

theorem State.standstill_keepsBands (order : List Taker) (s : State) : s.KeepsBands (s.standstill order) := by
  have rests : s.KeepsBands s.endRun.samplerStandstill.idleEstimate.testLatch := State.keepsBands_of_frame (by simp)
  exact (foldl_keepsBands State.takeStandstill_keepsBands _ _).after rests

end Sys2Proof.Machine
end

section
/-! The band table over writes of the store, its programming, and the resets. -/

namespace Sys2Proof.Machine

/-! ### Writes -/

/-- The table is in range and no span is open. -/
structure State.TableClosed (s : State) : Prop where
  table : TableFits s.sdist s.rbt.bands
  closed : s.rbt.span = none

theorem State.TableClosed.tableSafe {s : State} (h : s.TableClosed) : s.TableSafe :=
  ⟨h.table, by rw [h.closed]; exact fun _ e => nomatch e⟩

theorem State.TableClosed.congr {s t : State} (h : s.TableClosed) (kept : t.rbt = s.rbt ∧ t.cls = s.cls) :
    t.TableClosed := by
  obtain ⟨rbt, cls⟩ := kept
  refine ⟨?_, rbt ▸ h.closed⟩
  rw [rbt, State.sdist_congr cls]
  exact h.table

theorem State.TableClosed.ifChanged {s : State} (h : s.TableClosed) {f : State → State}
    (keeps : ∀ u : State, u.TableClosed → (f u).TableClosed) (changed : Nat → Bool) (ns : List Nat) :
    (s.ifChanged changed ns f).TableClosed := by
  unfold State.ifChanged
  split
  · exact keeps s h
  · exact h

theorem State.TableClosed.reloadBands {s : State} (h : s.TableClosed) : s.reloadBands.TableClosed :=
  ⟨State.reloadBands_fits h.table, (State.loadBands_span _).trans h.closed⟩

/-- CSM's and IBE's parts of a write are nothing to the band table. -/
theorem State.estimatorWrite_rbt (changed : Nat → Bool) (s : State) :
    ((s.sensingWrite changed).estimatorWrite changed).rbt = s.rbt ∧
      ((s.sensingWrite changed).estimatorWrite changed).cls = s.cls := by
  have senses : (s.sensingWrite changed).rbt = s.rbt := by
    unfold State.sensingWrite State.ifChanged
    dsimp only
    split_ifs <;> simp
  have estimates (u : State) : (u.estimatorWrite changed).rbt = u.rbt ∧ (u.estimatorWrite changed).cls = u.cls := by
    unfold State.estimatorWrite State.ifChanged
    dsimp only
    split_ifs <;> simp
  exact ⟨(estimates _).1.trans senses, (estimates _).2.trans (by simp)⟩

/-- A write of Sdist raises the lower edges (R65); of one that leaves Sdist nothing is asked. -/
theorem State.raiseIfChanged_closed {s u : State} (h : s.TableClosed) (rbt : u.rbt = s.rbt) {changed : Nat → Bool}
    (same : changed 14 = false → u.sdist = s.sdist) : (u.ifChanged changed [14] State.raiseBands).TableClosed := by
  unfold State.ifChanged
  split
  · refine ⟨?_, by simpa [State.raiseBands, State.withBands, rbt] using h.closed⟩
    rw [State.sdist_congr (s := u) (by simp)]
    change TableFits u.sdist (u.rbt.bands.filterMap (Band.raise u.sdist))
    rw [rbt]
    exact h.table.raise u.sdist
  · next still =>
    refine ⟨?_, rbt ▸ h.closed⟩
    rw [rbt, same (by simpa using still)]
    exact h.table

theorem State.ceilingAndGrant_kept (s : State) : s.ceilingAndGrant.rbt = s.rbt ∧ s.ceilingAndGrant.cls = s.cls := by simp

/-- The consumers of a write leave a table in range for the Sdist that it gives (R65, R181). -/
theorem State.TableClosed.takeWrite_bandsSafe {s : State} (h : s.TableClosed) (n : Nat) (ws : List Word) :
    (s.takeWrite n ws).bandsSafe = true := by
  unfold State.takeWrite
  generalize hch : s.cls.differs (s.cls.take n ws) = changed
  generalize hu : ({ s with cls := s.cls.take n ws } : State) = u
  obtain ⟨rbt, cls⟩ := State.estimatorWrite_rbt changed u
  generalize hv : (u.sensingWrite changed).estimatorWrite changed = v at rbt cls
  have raised : (v.ifChanged changed [14] State.raiseBands).TableClosed := by
    refine State.raiseIfChanged_closed h (by rw [rbt, ← hu]) fun still => ?_
    have inForce : s.cls.inForce 14 = (s.cls.take n ws).inForce 14 := by
      rw [← hch] at still
      simpa [Cls.differs] using still
    rw [State.sdist, cls, ← hu]
    exact (congrArg (wordAt · 0) inForce).symm
  have capacity (w : State) : w.capacityWrite.rbt = w.rbt ∧ w.capacityWrite.cls = w.cls := by
    unfold State.capacityWrite State.removeOrders State.lowerContents
    dsimp only
    split <;> simp
  have consumed := ((((raised.ifChanged (fun _ => State.TableClosed.reloadBands) changed [38, 39]).ifChanged
    (fun w k => k.congr (capacity w)) changed [3]).ifChanged
    (f := State.bleedTimers) (fun w k => k.congr (by simp)) changed [15]).ifChanged
    (f := State.refreeze) (fun w k => k.congr (by simp)) changed [16, 17]).ifChanged
    (f := State.reaim) (fun w k => k.congr (by simp)) changed [2]
  rw [← hv] at consumed
  have derived := consumed.congr (State.ceilingAndGrant_kept _)
  exact derived.tableSafe.planReport

/-- Words stored and their check are nothing to the values in force (R179). -/
theorem Cls.update_value {f : Item → Item} (keeps : ∀ i, (f i).num = i.num ∧ (f i).held = i.held ∧ (f i).source = i.source)
    (p : Nat → Bool) (c : Cls) (n : Nat) : (c.update p f).value n = c.value n := by
  have kept (i : Item) : (if p i.num then f i else i).num = i.num ∧ (if p i.num then f i else i).held = i.held ∧
      (if p i.num then f i else i).source = i.source := by
    split
    · exact keeps i
    · exact ⟨rfl, rfl, rfl⟩
  have defaulted : (c.update p f).defaulted = c.defaulted := by
    simp only [Cls.defaulted, Cls.update_items, List.any_map, Function.comp_def, (kept _).2.2]
  have item : (c.update p f).item n = (c.item n).map (fun i => if p i.num then f i else i) := by
    simp only [Cls.item, Cls.update_items, List.find?_map, Function.comp_def, (kept _).1]
  unfold Cls.value Cls.inForce
  rw [defaulted, item]
  cases c.item n with
  | none => rfl
  | some i => simp only [Option.map_some, (kept i).2.1]

theorem State.keepsBands_of_sdist {s t : State} (rbt : t.rbt = s.rbt) (spm : t.spm = s.spm) (sdist : t.sdist = s.sdist) :
    s.KeepsBands t := by
  intro safe
  obtain ⟨table, span⟩ := s.bandsSafe_iff.1 safe
  exact t.bandsSafe_iff.2 ⟨table.congr rbt sdist, by rwa [rbt, spm]⟩

theorem State.programmingDone_keepsBands (s : State) : s.KeepsBands s.programmingDone := by
  unfold State.programmingDone
  split
  · exact .refl s
  · next p _ =>
    refine State.keepsBands_of_sdist rfl rfl ?_
    exact Cls.update_value (f := fun i => { i with stored := p.words, checkOk := true }) (fun _ => ⟨rfl, rfl, rfl⟩)
      (fun n => n = p.item) s.cls 14

theorem State.lockService_keepsBands (s : State) : s.KeepsBands s.lockService := by
  have locks : s.KeepsBands { s with cls := { s.cls with unlocked := false } } := State.keepsBands_of_sdist rfl rfl rfl
  unfold State.lockService
  dsimp only
  split
  · exact (State.changeGuard_keepsBands _ _).after locks
  · exact locks

/-! ### Resets -/

theorem State.beginReset_bandsSafe (powerOn : Bool) (reached : Nat) (rst : ResetControl) (s : State) :
    (s.beginReset powerOn reached rst).bandsSafe = true :=
  State.bandsSafe_of_closed (TableFits.nil _) rfl

/-- The load at the end of a reset starts from an empty table (R64, R76). -/
theorem State.endReset_bandsSafe (s : State) : s.endReset.bandsSafe = true := by
  obtain ⟨-, -, -, -, -, -, -, -, -, rbt⟩ := s.restarted_blocks
  have empty : TableFits s.restarted.sdist s.restarted.rbt.bands := by
    rw [rbt]
    exact TableFits.nil _
  have loaded := State.loadBands_fits empty
  refine State.bandsSafe_of_closed ?_ s.endReset_bands.2
  change TableFits s.restarted.loadBands.firstGrant.sdist s.restarted.loadBands.firstGrant.rbt.bands
  rw [State.sdist_congr (s := s.restarted.loadBands) (by simp)]
  simpa using loaded

end Sys2Proof.Machine
end

section
/-! The band table over the requests, one lemma per owner, and a frame's way to its owner. -/

namespace Sys2Proof.Machine

/-! ### Band requests -/

theorem declarationFits_edgesFit {sdist lower upper peak : Nat} (fits : declarationFits sdist lower upper peak = true) :
    (declaredBand lower upper peak).edgesFit sdist := by
  simp only [declarationFits, between, Bool.and_eq_true, decide_eq_true_eq] at fits
  unfold Band.edgesFit declaredBand
  dsimp only
  omega

/-- A band of the table with something else than its span changed, put back into its slot. -/
theorem TableFits.replace {sdist : Nat} {bs : List Band} (h : TableFits sdist bs) {b c : Band} (mem : b ∈ bs)
    (id : c.id = b.id) (lower : c.lower = b.lower) (upper : c.upper = b.upper) (peak : c.peak = b.peak) :
    TableFits sdist (Machine.putBand c bs) := by
  have fits : c.fits sdist = true := by
    simpa only [Band.fits, id, lower, upper, peak] using h.fits b mem
  rw [← putBand_removeBand]
  refine (h.sublist (removeBand_sublist c.id bs)).putBand fits (fun a k => (mem_removeBand.1 k).2) fun a k => ?_
  obtain ⟨mema, other⟩ := mem_removeBand.1 k
  refine Bool.eq_false_iff.2 fun overlap => other ?_
  have touch : b.overlaps a = true := by simpa only [Band.overlaps, lower, upper] using overlap
  rw [id, h.eq_of_overlaps mem mema touch]

/-! ### Owners -/

/-- An owner keeps a safe band table at whatever frame and state. -/
def Owner.keepsBands (own : Owner) : Prop := ∀ (f : Frame) (s : State), s.KeepsBands (own f s).state

theorem State.withSlot_keepsBands {s : State} {g : Plateau → Reply} (keeps : ∀ p, s.KeepsBands (g p).state) (slot : Nat) :
    s.KeepsBands (s.withSlot slot g).state := by
  unfold State.withSlot
  split
  · exact .refl s
  · split
    · exact .refl s
    · exact keeps _

/-- A request of a band of the table (4.6). -/
theorem State.withBand_keepsBands {s : State} {g : Band → Reply}
    (keeps : ∀ b ∈ s.rbt.bands, s.KeepsBands (g b).state) (id : Nat) : s.KeepsBands (s.withBand id g).state := by
  unfold State.withBand
  split
  · exact .refl s
  · split
    · exact .refl s
    · next b found => exact keeps b (bandAt_some found).1

theorem State.delayedLookup_keepsBands (k : DelayedKey) (p : Port) (s : State) : s.KeepsBands (s.delayedLookup k p).state := by
  unfold State.delayedLookup
  split
  · exact .refl s
  · split
    · exact State.keepsBands_of_frame ⟨rfl, rfl, rfl⟩
    · exact .refl s
    · exact .refl s

theorem ownNothing_keepsBands : Owner.keepsBands ownNothing := fun _ s => .refl s

theorem ownLookupPlan_keepsBands : Owner.keepsBands ownLookupPlan := fun _ s => .refl s

theorem ownLookupPlateau_keepsBands : Owner.keepsBands ownLookupPlateau :=
  fun _ s => s.withSlot_keepsBands (fun _ => .refl s) _

theorem ownLookupGrant_keepsBands : Owner.keepsBands ownLookupGrant := by
  intro f s
  change s.KeepsBands (if f.port = .drive then { s with lkp := { s.lkp with driveAtn := false } } else s)
  split
  · exact State.keepsBands_of_frame ⟨rfl, rfl, rfl⟩
  · exact .refl s

theorem ownLookupEstimate_keepsBands : Owner.keepsBands ownLookupEstimate := by
  intro f s
  unfold ownLookupEstimate
  split <;> exact .refl s

theorem ownLookupEstimateDelayed_keepsBands : Owner.keepsBands ownLookupEstimateDelayed := by
  intro f s
  unfold ownLookupEstimateDelayed
  dsimp only
  split
  · split
    · exact State.keepsBands_of_frame ⟨rfl, rfl, rfl⟩
    · exact .refl s
    · exact .refl s
  · exact s.delayedLookup_keepsBands _ _

theorem ownLookupLoad_keepsBands : Owner.keepsBands ownLookupLoad := fun _ s => .refl s

theorem ownLookupBand_keepsBands : Owner.keepsBands ownLookupBand :=
  fun _ s => s.withBand_keepsBands (fun _ _ => .refl s) _

theorem ownLookupChamber_keepsBands : Owner.keepsBands ownLookupChamber := by
  intro f s
  unfold ownLookupChamber
  split <;> exact .refl s

theorem ownLookupQueue_keepsBands : Owner.keepsBands ownLookupQueue := by
  intro f s
  unfold ownLookupQueue
  split
  · exact .refl s
  · split
    · exact .refl s
    · split <;> exact .refl s

theorem ownLookupStatus_keepsBands : Owner.keepsBands ownLookupStatus := by
  intro f s
  unfold ownLookupStatus
  dsimp only
  split
  · exact State.keepsBands_of_frame ⟨rfl, rfl, rfl⟩
  · exact .refl s

theorem ownLookupCal_keepsBands : Owner.keepsBands ownLookupCal := by
  intro f s
  unfold ownLookupCal
  split
  · exact .refl s
  · split <;> exact .refl s

theorem State.planBecomes_kept (p : PlanState) (s : State) :
    (s.planBecomes p).rbt = s.rbt ∧ (s.planBecomes p).cls = s.cls := by
  unfold State.planBecomes
  split <;> simp

theorem ownAppend_keepsBands : Owner.keepsBands ownAppend := by
  intro f s
  unfold ownAppend
  dsimp only
  split_ifs
  · exact .refl s
  · exact .refl s
  · exact .refl s
  · have appends (ps : List Plateau) : s.KeepsBands { s with spm := { s.spm with plateaus := ps } } :=
      State.keepsBands_of_frame ⟨rfl, rfl, rfl⟩
    have reported (u : State) : u.KeepsBands u.planAppended := by
      unfold State.planAppended
      split
      · exact State.report_keepsBands (by simpa using u.planBecomes_kept _)
      · exact .refl u
    exact (reported _).after (appends _)

theorem State.amendTaken_kept (p : Plateau) (v : PlateauParams) (s : State) :
    (s.amendTaken p v).rbt = s.rbt ∧ (s.amendTaken p v).cls = s.cls := by
  have ramps (u : State) : (u.rampAgain p).rbt = u.rbt ∧ (u.rampAgain p).cls = u.cls := by
    unfold State.rampAgain
    split <;> simp
  unfold State.amendTaken
  dsimp only
  split
  · simp
  · split <;> simp [ramps]

theorem ownAmendPlateau_keepsBands : Owner.keepsBands ownAmendPlateau := by
  have queued (slot : Nat) (v : PlateauParams) (s : State) : s.KeepsBands (s.amendQueued slot v).state := by
    unfold State.amendQueued
    split
    · exact .refl s
    · exact State.keepsBands_of_frame ⟨rfl, rfl, rfl⟩
  have taken (p : Plateau) (v : PlateauParams) (s : State) : s.KeepsBands (s.amendActive p v).state := by
    unfold State.amendActive
    generalize (if p.autoBalance then 1 else 0) = asked
    split_ifs
    · exact .refl s
    · exact .refl s
    · exact State.report_keepsBands (s.amendTaken_kept p v)
  intro f s
  refine s.withSlot_keepsBands (fun p => ?_) _
  split
  · exact queued _ _ s
  · exact taken p _ s
  · exact .refl s
  · exact .refl s

theorem ownWithdraw_keepsBands : Owner.keepsBands ownWithdraw := by
  intro f s
  refine s.withSlot_keepsBands (fun p => ?_) _
  split
  · change s.KeepsBands (s.withdrawQueued p.slot)
    unfold State.withdrawQueued
    dsimp only
    split
    · exact State.report_keepsBands (by simpa using State.planBecomes_kept _ _)
    · exact State.keepsBands_of_frame ⟨rfl, rfl, rfl⟩
  · exact State.report_keepsBands (by simp)
  · exact .refl s
  · exact .refl s

theorem ownRetirePlateau_keepsBands : Owner.keepsBands ownRetirePlateau := by
  intro f s
  refine s.withSlot_keepsBands (fun p => ?_) _
  split
  · exact State.keepsBands_of_frame ⟨rfl, rfl, rfl⟩
  · exact .refl s

theorem ownStart_keepsBands : Owner.keepsBands ownStart := by
  intro f s
  unfold ownStart
  split_ifs
  · exact .refl s
  · exact .refl s
  · exact .refl s
  · exact .refl s
  · exact State.report_keepsBands (by simp)

theorem ownPause_keepsBands : Owner.keepsBands ownPause := by
  intro f s
  unfold ownPause
  split
  · exact State.report_keepsBands (by simp)
  · exact .refl s

theorem ownResume_keepsBands : Owner.keepsBands ownResume := by
  intro f s
  unfold ownResume
  split
  · exact State.report_keepsBands (by simp)
  · exact .refl s

theorem ownNext_keepsBands : Owner.keepsBands ownNext := by
  intro f s
  refine s.withSlot_keepsBands (fun p => ?_) _
  split
  · exact State.report_keepsBands (by simp)
  · exact .refl s

theorem ownAbort_keepsBands : Owner.keepsBands ownAbort := by
  intro f s
  unfold ownAbort
  split
  · exact State.report_keepsBands (by simp)
  · exact .refl s

/-- CLEAR frees bands and gives back a plan that is EMPTY (R74, R107). -/
theorem State.clearPlan_keepsBands (s : State) : s.KeepsBands s.clearPlan := by
  intro safe
  obtain ⟨rbt, cls⟩ := State.planBecomes_kept .empty { s with spm := { s.spm with plateaus := [] } }
  unfold State.clearPlan
  dsimp only
  generalize State.planBecomes .empty { s with spm := { s.spm with plateaus := [] } } = u at rbt cls
  have safeBefore := State.tableSafe_of_safe safe
  have emptied : u.TableSafe := safeBefore.congr rbt (State.sdist_congr cls)
  have freed : TableFits u.sdist (clearLearned s.rbt.bands) := by
    rw [State.sdist_congr (s := s) cls]
    exact safeBefore.table.sublist List.filter_sublist
  exact ((emptied.changeBands freed).congr (by simp) (State.sdist_congr (by simp))).planReport

theorem ownClear_keepsBands : Owner.keepsBands ownClear := by
  intro f s
  unfold ownClear
  split
  · exact .refl s
  · exact s.clearPlan_keepsBands

theorem ownGuard_keepsBands : Owner.keepsBands ownGuard := by
  intro f s
  unfold ownGuard
  split
  · exact .refl s
  · split
    · exact .refl s
    · exact s.changeGuard_keepsBands _

/-- A declaration that passes its tests is a band in range (R66). -/
theorem ownDeclare_keepsBands : Owner.keepsBands ownDeclare := by
  intro f s
  unfold ownDeclare
  split
  · next fits =>
    have placed (h : TableFits s.sdist s.rbt.bands) := h.placeBand (declarationFits_edgesFit fits)
    split
    · next eq => exact State.changeBands_keepsBands fun h => by simpa only [eq] using placed h
    · next eq => exact State.changeBands_keepsBands fun h => by simpa only [eq] using placed h
    · exact .refl s
  · exact .refl s

theorem ownRetireBand_keepsBands : Owner.keepsBands ownRetireBand := by
  intro f s
  refine s.withBand_keepsBands (fun b _ => ?_) _
  split
  · exact .refl s
  · exact State.changeBands_keepsBands fun h => h.sublist (removeBand_sublist _ _)

theorem ownPin_keepsBands : Owner.keepsBands ownPin := by
  intro f s
  unfold ownPin
  split
  · exact .refl s
  · refine s.withBand_keepsBands (fun b mem => ?_) _
    split
    · exact State.changeBands_keepsBands fun h => h.replace mem rfl rfl rfl rfl
    · exact .refl s

theorem ownAmendLoad_keepsBands : Owner.keepsBands ownAmendLoad := by
  intro f s
  unfold ownAmendLoad
  split
  · exact .refl s
  · split
    · exact .refl s
    · change s.KeepsBands (s.amendLoad _)
      unfold State.amendLoad
      dsimp only
      split
      · exact State.keepsBands_of_frame ⟨rfl, rfl, rfl⟩
      · exact State.report_keepsBands (by simp)

theorem ownInject_keepsBands : Owner.keepsBands ownInject := by
  intro f s
  unfold ownInject
  dsimp only
  split
  · exact .refl s
  · exact State.keepsBands_of_frame (by simp [State.injectTaken])

theorem ownFlush_keepsBands : Owner.keepsBands ownFlush := fun _ _ => State.keepsBands_of_frame ⟨rfl, rfl, rfl⟩

theorem ownCancel_keepsBands : Owner.keepsBands ownCancel := fun _ _ => State.keepsBands_of_frame (by simp [ownCancel])

theorem ownClearTrip_keepsBands : Owner.keepsBands ownClearTrip := by
  intro f s
  unfold ownClearTrip
  split_ifs
  · exact .refl s
  · exact .refl s
  · exact .refl s
  · exact State.report_keepsBands (by simp)

theorem State.quietTaken_keepsBands (n : Nat) (s : State) : s.KeepsBands (s.quietTaken n) := by
  unfold State.quietTaken
  exact State.setPart_keepsBands_of_frame (by simp) _

theorem ownQuiet_keepsBands : Owner.keepsBands ownQuiet := by
  intro f s
  unfold ownQuiet
  dsimp only
  split_ifs
  · exact .refl s
  · exact .refl s
  · exact .refl s
  · exact .refl s
  · exact s.quietTaken_keepsBands _

theorem ownReset_keepsBands : Owner.keepsBands ownReset := fun _ s => .refl s

theorem ownKeyVerify_keepsBands : Owner.keepsBands ownKeyVerify := by
  intro f s
  unfold ownKeyVerify
  split
  · exact .refl s
  · split_ifs
    · exact .refl s
    · exact State.keepsBands_of_sdist rfl rfl rfl
    · exact State.keepsBands_of_sdist rfl rfl rfl

theorem ownLock_keepsBands : Owner.keepsBands ownLock := fun _ s => s.lockService_keepsBands

/-- A write is taken while no plan is under way, so that no span is open (R180). -/
theorem ownCalWrite_keepsBands : Owner.keepsBands ownCalWrite := by
  intro f s
  unfold ownCalWrite
  split
  · dsimp only
    split
    · exact .refl s
    · next idle =>
      split
      · exact .refl s
      · intro safe
        have rests : s.spm.plan ≠ .running := fun running => idle (by rw [running]; rfl)
        have closed := State.span_closed safe rests
        have taken : s.TableClosed := ⟨(State.tableSafe_of_safe safe).table, closed⟩
        exact taken.takeWrite_bandsSafe _ _
  · exact .refl s

theorem lookupOwner_keepsBands (f : Frame) : (lookupOwner f).keepsBands := by
  unfold lookupOwner
  split
  · exact ownLookupPlan_keepsBands
  · exact ownLookupPlateau_keepsBands
  · exact ownLookupGrant_keepsBands
  · split
    · exact ownLookupEstimateDelayed_keepsBands
    · exact ownLookupEstimate_keepsBands
  · exact ownLookupBand_keepsBands
  · exact ownLookupChamber_keepsBands
  · exact ownLookupQueue_keepsBands
  · exact ownLookupLoad_keepsBands
  · exact ownLookupStatus_keepsBands
  · exact ownLookupCal_keepsBands
  · exact ownNothing_keepsBands

theorem commandOwner_keepsBands (f : Frame) : (commandOwner f).keepsBands := by
  unfold commandOwner
  split
  · exact ownStart_keepsBands
  · exact ownPause_keepsBands
  · exact ownResume_keepsBands
  · exact ownNext_keepsBands
  · exact ownAbort_keepsBands
  · exact ownClear_keepsBands
  · exact ownClearTrip_keepsBands
  · exact ownFlush_keepsBands
  · exact ownCancel_keepsBands
  · exact ownGuard_keepsBands
  · exact ownQuiet_keepsBands
  · exact ownLock_keepsBands
  · exact ownReset_keepsBands
  · exact ownNothing_keepsBands

theorem ownerOf_keepsBands (f : Frame) : (ownerOf f).keepsBands := by
  unfold ownerOf
  split
  · exact lookupOwner_keepsBands f
  · exact ownAppend_keepsBands
  · split
    · exact ownAmendPlateau_keepsBands
    · exact ownAmendLoad_keepsBands
  · exact ownWithdraw_keepsBands
  · split
    · exact ownRetirePlateau_keepsBands
    · exact ownRetireBand_keepsBands
  · exact commandOwner_keepsBands f
  · exact ownInject_keepsBands
  · exact ownDeclare_keepsBands
  · exact ownPin_keepsBands
  · exact ownCalWrite_keepsBands
  · exact ownKeyVerify_keepsBands
  · exact ownNothing_keepsBands

end Sys2Proof.Machine
end

section
/-! The band table over a frame's way to its owner, the ports, and every command. -/

namespace Sys2Proof.Machine

/-! ### A frame's way to its owner -/

theorem State.setPort_keepsBands (p : Port) (v : PortState) (s : State) : s.KeepsBands (s.setPort p v) :=
  State.keepsBands_of_frame (by simp)

theorem State.examine_keepsBands {own : Owner} (keeps : own.keepsBands) (f : Frame) (s : State) :
    s.KeepsBands (s.examine own f).state := by
  unfold State.examine
  split
  · exact .refl s
  · split
    · exact .refl s
    · exact keeps f s

theorem State.cancelledBy_keepsBands (f : Frame) (s : State) : s.KeepsBands (s.cancelledBy f) := by
  unfold State.cancelledBy
  split
  · exact s.cancelQuiet_keepsBands
  · exact .refl s

theorem State.dealAddressed_keepsBands {own : Owner} (keeps : own.keepsBands) (f : Frame) (s : State) :
    s.KeepsBands (s.dealAddressed own f).state := by
  unfold State.dealAddressed
  split
  · exact .refl s
  · split
    · exact keeps f s
    · exact s.wakeSource_keepsBands true
  · split
    · exact keeps f s
    · exact .refl s
  · split
    · exact keeps f s
    · exact (State.examine_keepsBands keeps f _).after (s.cancelledBy_keepsBands f)
  · exact State.examine_keepsBands keeps f s

theorem State.dealBroadcast_keepsBands {own : Owner} (keeps : own.keepsBands) (f : Frame) (s : State) :
    s.KeepsBands (s.dealBroadcast own f) := by
  unfold State.dealBroadcast
  split
  · exact .refl s
  · exact s.wakeSource_keepsBands true
  · exact .refl s
  · dsimp only
    split
    · exact (keeps f _).after (s.cancelledBy_keepsBands f)
    · exact s.cancelledBy_keepsBands f
  · split
    · exact keeps f s
    · exact .refl s

theorem State.receiveBusy_keepsBands (f : Frame) (s : State) : s.KeepsBands (s.receiveBusy f) := by
  unfold State.receiveBusy
  split
  · exact s.wakeSource_keepsBands true
  · exact .refl s

theorem State.deliver_keepsBands {own : Owner} (keeps : own.keepsBands) (f : Frame) (s : State) :
    s.KeepsBands (s.deliver own f) := by
  have clears : s.KeepsBands (s.clearRx f.port) := State.keepsBands_of_frame (by simp)
  unfold State.deliver
  dsimp only
  split
  · exact clears
  · refine State.KeepsBands.after ?_ clears
    unfold State.receiveBroadcast
    split
    · exact State.dealBroadcast_keepsBands keeps f _
    · exact State.receiveBusy_keepsBands f _
  · refine State.KeepsBands.after ?_ clears
    unfold State.receiveAddressed
    dsimp only
    split
    · exact (State.setPort_keepsBands _ _ _).after (State.dealAddressed_keepsBands keeps f _)
    · split
      · exact (State.setPort_keepsBands _ _ _).after (State.receiveBusy_keepsBands f _)
      · exact State.receiveBusy_keepsBands f _

/-! ### Characters, gaps and answers -/

theorem State.takeByte_keepsBands (p : Port) (bs : List Byte) (s : State) : s.KeepsBands (s.takeByte ownerOf p bs) := by
  have receives (r : Rx) : s.KeepsBands (s.setRx p r) := s.setPort_keepsBands _ _
  unfold State.takeByte
  split
  · exact receives _
  · split
    · dsimp only
      split
      · exact (State.deliver_keepsBands (ownerOf_keepsBands _) _ _).after (receives _)
      · exact receives _
    · exact receives _

theorem State.takeCharacter_keepsBands (p : Port) (b : Byte) (stopBit : Bool) (s : State) :
    s.KeepsBands (s.takeCharacter ownerOf p b stopBit) := by
  unfold State.takeCharacter
  dsimp only
  split
  · exact s.setPort_keepsBands _ _
  · split
    · exact s.takeByte_keepsBands p _
    · exact s.setPort_keepsBands _ _

theorem State.gapTimeout_keepsBands (p : Port) (s : State) : s.KeepsBands (s.gapTimeout p) := by
  have waits (n : Nat) : s.KeepsBands { s with time := n } := State.keepsBands_of_frame (by simp)
  unfold State.gapTimeout
  dsimp only
  split
  · exact .refl s
  · exact (State.setPort_keepsBands _ _ _).after (waits _)

theorem State.answerSent_keepsBands (p : Port) (s : State) : s.KeepsBands (s.answerSent p) := by
  unfold State.answerSent
  split
  · exact .refl s
  · split
    · exact .refl s
    · split
      · exact fun _ => State.beginReset_bandsSafe _ _ _ _
      · exact s.setPort_keepsBands _ _

/-! ### Commands -/

/-- An outcome is a next state with a band table that is safe if that of `s` is. -/
def bandsNext (s : State) (o : Host.Outcome State Fault Refusal) : Prop := ∃ t, o = .next t ∧ s.KeepsBands t

theorem bandsNext_next {s t : State} (h : s.KeepsBands t) : bandsNext s (.next t) := ⟨t, rfl, h⟩

theorem State.elapse_keepsBands (n : Nat) (s : State) : s.KeepsBands (s.elapse n) := State.keepsBands_of_frame (by simp)

theorem received_keepsBands {own : Owner} (keeps : own.keepsBands) (after : Nat) (f : Frame) (s : State) :
    bandsNext s (received after own f s) :=
  bandsNext_next ((State.deliver_keepsBands keeps f _).after (s.elapse_keepsBands after))

theorem fromOutside_keepsBands {f : State → State} (keeps : ∀ u : State, u.KeepsBands (f u)) (after : Nat) (s : State) :
    bandsNext s (fromOutside after f s) := by
  refine bandsNext_next ?_
  split
  · exact s.elapse_keepsBands after
  · exact (keeps _).after (s.elapse_keepsBands after)

theorem onExpiry_keepsBands {f : State → State} (keeps : ∀ u : State, u.KeepsBands (f u)) (timer : Option Nat) (s : State) :
    bandsNext s (onExpiry timer f s) := by
  unfold onExpiry
  split
  · exact bandsNext_next (.refl s)
  · refine bandsNext_next ?_
    split
    · exact .refl s
    · exact (keeps _).after (State.keepsBands_of_frame (by simp))

theorem execPowerOn_keepsBands (after reached : Nat) (s : State) : bandsNext s (execPowerOn after reached s) :=
  bandsNext_next fun _ => State.beginReset_bandsSafe _ _ _ _

theorem execResetNAsserted_keepsBands (after reached : Nat) (s : State) :
    bandsNext s (execResetNAsserted after reached s) := by
  refine bandsNext_next ?_
  split
  · exact s.elapse_keepsBands after
  · exact fun _ => State.beginReset_bandsSafe _ _ _ _

theorem execResetNNegated_keepsBands (after : Nat) (s : State) : bandsNext s (execResetNNegated after s) := by
  refine bandsNext_next (State.KeepsBands.after ?_ (s.elapse_keepsBands after))
  generalize s.elapse after = t
  split
  · exact .refl t
  · split
    · exact State.keepsBands_of_frame (by simp)
    · exact fun _ => State.endReset_bandsSafe _

theorem execResetTimerExpiry_keepsBands (s : State) : bandsNext s (execResetTimerExpiry s) := by
  unfold execResetTimerExpiry
  split
  · exact bandsNext_next (.refl s)
  · refine bandsNext_next ?_
    dsimp only
    split
    · exact State.keepsBands_of_frame (by simp)
    · exact fun _ => State.endReset_bandsSafe _

theorem execEndOfStartUp_keepsBands (s : State) : bandsNext s (execEndOfStartUp s) :=
  onExpiry_keepsBands (fun u => (State.post_keepsBands .restart _).after
    (State.setPart_keepsBands_of_frame (t := { u with startUp := none }) (by simp) .run)) _ s

theorem execQuietCountdownExpiry_keepsBands (s : State) : bandsNext s (execQuietCountdownExpiry s) :=
  onExpiry_keepsBands (fun u =>
    State.setPart_keepsBands_of_frame (t := { u with lkp := { u.lkp with quietTimer := none } }) (by simp) .quiet) _ s

theorem execWakeTimerExpiry_keepsBands (s : State) : bandsNext s (execWakeTimerExpiry s) :=
  onExpiry_keepsBands (fun u => (State.post_keepsBands .wake _).after
    (State.setPart_keepsBands_of_frame (t := { u with lkp := { u.lkp with wakeTimer := none } }) (by simp) .run)) _ s

theorem execSlotEvent_keepsBands (codes : Four Code) (s : State) : bandsNext s (execSlotEvent codes s) := by
  unfold execSlotEvent
  split
  · exact bandsNext_next (.refl s)
  · exact bandsNext_next (State.keepsBands_of_frame (by simp))

theorem State.staticSample_keepsBands (codes : Four Code) (s : State) : s.KeepsBands (s.staticSample codes) := by
  have samples (c : Csm) : s.KeepsBands (State.recomputeSag { s with csm := c }) := State.keepsBands_of_frame (by simp)
  have watches (u : State) : u.KeepsBands u.watchSag := by
    have refers (c : Csm) : u.KeepsBands { u with csm := c } := State.keepsBands_of_frame (by simp)
    unfold State.watchSag
    split
    · exact .refl u
    · exact refers _
    · split
      · exact (State.wakeSource_keepsBands _ _).after (refers _)
      · exact .refl u
  unfold State.staticSample
  dsimp only
  split
  · exact (watches _).after (samples _)
  · exact samples _

theorem execIndexOverdue_keepsBands (s : State) : bandsNext s (execIndexOverdue s) := by
  have stops (u : State) : u.KeepsBands { u with rtb := { u.rtb with overdue := none } } :=
    State.keepsBands_of_frame (by simp)
  exact onExpiry_keepsBands (fun u => (State.findCause_keepsBands _ _).after (stops u)) _ s

theorem execGiveUpTimerExpiry_keepsBands (s : State) : bandsNext s (execGiveUpTimerExpiry s) := by
  unfold execGiveUpTimerExpiry
  split
  · exact onExpiry_keepsBands (fun u => State.keepsBands_of_frame (by simp)) _ s
  · exact bandsNext_next (.refl s)
  · exact bandsNext_next (.refl s)

theorem execDiscardTimerExpiry_keepsBands (s : State) : bandsNext s (execDiscardTimerExpiry s) := by
  unfold execDiscardTimerExpiry
  split
  · exact onExpiry_keepsBands (fun u => State.keepsBands_of_frame (by simp)) _ s
  · exact bandsNext_next (.refl s)
  · exact bandsNext_next (.refl s)

theorem State.dwellTick_keepsBands (s : State) : s.KeepsBands s.dwellTick := by
  unfold State.dwellTick
  dsimp only
  split
  · exact State.report_keepsBands (by simp)
  · exact State.keepsBands_of_frame ⟨rfl, rfl, rfl⟩

theorem State.openWindow_keepsBands (w : Window) (s : State) : s.KeepsBands (s.openWindow w) := by
  have ring (r : Ric) : s.KeepsBands { s with ric := r } := State.keepsBands_of_frame (by simp)
  unfold State.openWindow
  dsimp only
  split
  · split
    · exact (State.orderServing_keepsBands _).after (ring _)
    · exact ring _
  · exact ring _

theorem execOpenInstant_keepsBands (chamber : Fin 4) (s : State) : bandsNext s (execOpenInstant chamber s) := by
  have waits (n : Nat) : s.KeepsBands (s.atInstant n) := State.keepsBands_of_frame (by simp)
  unfold execOpenInstant
  split
  · exact bandsNext_next (.refl s)
  · exact bandsNext_next ((State.openWindow_keepsBands _ _).after (waits _))

theorem execCloseInstant_keepsBands (s : State) : bandsNext s (execCloseInstant s) := by
  unfold execCloseInstant
  split
  · exact bandsNext_next (.refl s)
  · exact bandsNext_next (State.keepsBands_of_frame (by simp))

/-- A pin's change goes to TMO's debounce timer alone (R151, R160). -/
theorem pinChange_keepsBands {s t : State} (pins : s.KeepsBands t) (v : Tmo) :
    bandsNext s (.next (if t.inReset then t else { t with tmo := v })) := by
  refine bandsNext_next ?_
  split
  · exact pins
  · exact State.KeepsBands.after (State.keepsBands_of_frame (by simp)) pins

theorem exec_keepsBands (c : Instr) (s : State) : bandsNext s (exec c s) := by
  cases c with
  | powerOn after reached => exact execPowerOn_keepsBands after reached s
  | resetNAsserted after reached => exact execResetNAsserted_keepsBands after reached s
  | resetNNegated after => exact execResetNNegated_keepsBands after s
  | resetTimerExpiry => exact execResetTimerExpiry_keepsBands s
  | endOfStartUp => exact execEndOfStartUp_keepsBands s
  | indexEdge after rising order => exact fromOutside_keepsBands (fun u => u.indexEdge_keepsBands rising order) after s
  | slotEvent codes => exact execSlotEvent_keepsBands codes s
  | restTimerExpiry order => exact onExpiry_keepsBands (fun u => u.standstill_keepsBands order) _ s
  | indexOverdue => exact execIndexOverdue_keepsBands s
  | staticTimerExpiry codes => exact onExpiry_keepsBands (fun u => u.staticSample_keepsBands codes) _ s
  | giveUpTimerExpiry => exact execGiveUpTimerExpiry_keepsBands s
  | discardTimerExpiry => exact execDiscardTimerExpiry_keepsBands s
  | dwellTick => exact onExpiry_keepsBands State.dwellTick_keepsBands _ s
  | openInstant chamber => exact execOpenInstant_keepsBands chamber s
  | closeInstant => exact execCloseInstant_keepsBands s
  | bleedTick => exact onExpiry_keepsBands (fun u => State.keepsBands_of_frame (by simp)) _ s
  | unknownTimerExpiry => exact onExpiry_keepsBands (fun u => State.keepsBands_of_frame (by simp)) _ s
  | strikePinChange after level =>
    exact pinChange_keepsBands (t := { s.elapse after with strikePin := level }) (State.keepsBands_of_frame (by simp)) _
  | strikeDebounceExpiry => exact onExpiry_keepsBands State.strikeSettles_keepsBands _ s
  | lidlkPinChange after level =>
    exact pinChange_keepsBands (t := { s.elapse after with lidPin := level }) (State.keepsBands_of_frame (by simp)) _
  | lidDebounceExpiry => exact onExpiry_keepsBands State.lidSettles_keepsBands _ s
  | frameGapTimeout port => exact bandsNext_next (s.gapTimeout_keepsBands port)
  | answerSent after port =>
    exact bandsNext_next ((State.answerSent_keepsBands port _).after (s.elapse_keepsBands after))
  | quietCountdownExpiry => exact execQuietCountdownExpiry_keepsBands s
  | wakeTimerExpiry => exact execWakeTimerExpiry_keepsBands s
  | programmingDone after => exact fromOutside_keepsBands State.programmingDone_keepsBands after s
  | lookupPlan after r => exact received_keepsBands ownLookupPlan_keepsBands after _ s
  | lookupPlateau after r => exact received_keepsBands ownLookupPlateau_keepsBands after _ s
  | lookupGrant after r => exact received_keepsBands ownLookupGrant_keepsBands after _ s
  | lookupEstimate after r => exact received_keepsBands ownLookupEstimate_keepsBands after _ s
  | lookupEstimateDelayed after r => exact received_keepsBands ownLookupEstimateDelayed_keepsBands after _ s
  | lookupLoad after r => exact received_keepsBands ownLookupLoad_keepsBands after _ s
  | lookupBand after r => exact received_keepsBands ownLookupBand_keepsBands after _ s
  | lookupChamber after r => exact received_keepsBands ownLookupChamber_keepsBands after _ s
  | lookupQueue after r => exact received_keepsBands ownLookupQueue_keepsBands after _ s
  | lookupStatus after r => exact received_keepsBands ownLookupStatus_keepsBands after _ s
  | lookupCal after r => exact received_keepsBands ownLookupCal_keepsBands after _ s
  | append after r => exact received_keepsBands ownAppend_keepsBands after _ s
  | amendPlateau after r => exact received_keepsBands ownAmendPlateau_keepsBands after _ s
  | amendLoad after r => exact received_keepsBands ownAmendLoad_keepsBands after _ s
  | withdraw after r => exact received_keepsBands ownWithdraw_keepsBands after _ s
  | retirePlateau after r => exact received_keepsBands ownRetirePlateau_keepsBands after _ s
  | retireBand after r => exact received_keepsBands ownRetireBand_keepsBands after _ s
  | declare after r => exact received_keepsBands ownDeclare_keepsBands after _ s
  | pin after r => exact received_keepsBands ownPin_keepsBands after _ s
  | inject after r => exact received_keepsBands ownInject_keepsBands after _ s
  | start after r => exact received_keepsBands ownStart_keepsBands after _ s
  | pause after r => exact received_keepsBands ownPause_keepsBands after _ s
  | resume after r => exact received_keepsBands ownResume_keepsBands after _ s
  | next after r => exact received_keepsBands ownNext_keepsBands after _ s
  | abort after r => exact received_keepsBands ownAbort_keepsBands after _ s
  | clear after r => exact received_keepsBands ownClear_keepsBands after _ s
  | guard after r => exact received_keepsBands ownGuard_keepsBands after _ s
  | flush after r => exact received_keepsBands ownFlush_keepsBands after _ s
  | cancel after r => exact received_keepsBands ownCancel_keepsBands after _ s
  | clearTrip after r => exact received_keepsBands ownClearTrip_keepsBands after _ s
  | quiet after r => exact received_keepsBands ownQuiet_keepsBands after _ s
  | reset after r => exact received_keepsBands ownReset_keepsBands after _ s
  | lock after r => exact received_keepsBands ownLock_keepsBands after _ s
  | calWrite after r => exact received_keepsBands ownCalWrite_keepsBands after _ s
  | keyVerify after r => exact received_keepsBands ownKeyVerify_keepsBands after _ s
  | characterReceived after port byte stopBit =>
    exact bandsNext_next ((State.takeCharacter_keepsBands port byte stopBit _).after (s.elapse_keepsBands after))

theorem step_keepsBands (s : State) : bandsNext s (step s) := by
  unfold step
  split
  · exact bandsNext_next (s.elapse_keepsBands 1)
  · next c rest _ =>
    have takes : s.KeepsBands { s with pending := rest } := State.keepsBands_of_frame (by simp)
    obtain ⟨t, runs, keeps⟩ := exec_keepsBands c { s with pending := rest }
    exact ⟨t, runs, keeps.after takes⟩

/-- Settles O59: the table with its open span is kept in range by every operation on it, and a report closes every span that the
plan no longer keeps open (`State.TableSafe.planReport`), so each command keeps the table safe (`step_keepsBands`). -/
theorem stepKeepsTheBandsApart : Obligations.StepKeepsTheBandsApart := by
  intro s t runs safe
  obtain ⟨u, next, keeps⟩ := step_keepsBands s
  obtain rfl : u = t := Host.Outcome.next.inj (next.symm.trans runs)
  exact keeps safe

end Sys2Proof.Machine
end

section
/-! A band change that a request asks for, and DECLARE, RETIRE BAND and PIN (R61, R66, R67, R72, R73). -/

namespace Sys2Proof.Machine

/-! ### A change of the table with no span open -/

/-- A derivation is nothing to the ceiling. -/
theorem State.derive_ceiling (k : DerivationKind) (s : State) : (s.derive k).spm.ceiling = s.spm.ceiling := by
  have evaluates (n : Nat) (u : State) : (u.evaluateGrant n).spm.ceiling = u.spm.ceiling := (u.evaluateGrant_rest n).2.1
  unfold State.derive
  split
  · dsimp only
    split
    · exact evaluates 0 _
    · cases k <;> exact evaluates _ _
  · exact evaluates _ s

/-- After a computation of the ceiling it is that of the inputs in force (R85). -/
theorem State.ceilingAndGrant_now (s : State) : s.ceilingAndGrant.spm.ceiling = s.ceilingAndGrant.ceilingNow := by
  have now : s.ceilingAndGrant.ceilingNow = s.ceilingNow :=
    State.ceilingNow_congr s.ceilingAndGrant_calm.update s.ceilingAndGrant_planOp.guard (by simp) (by simp) (by simp)
  exact (State.derive_ceiling .held s.computeCeiling).trans now.symm

/-- The table is a given one, with the ceiling of it where it is a new one, and of the rest only the plan's own fields, the grant
and the ring may differ (R61). -/
structure State.BandsChanged (bs : List Band) (s t : State) : Prop where
  rbt : t.rbt = { s.rbt with bands := bs }
  ceiling : bs ≠ s.rbt.bands → t.spm.ceiling = t.ceilingNow
  ibe : t.ibe = s.ibe
  guard : t.spm.guard = s.spm.guard
  sensing : s.sameSensing t
  plan : s.spm.plan ≠ .running → t.spm.plan = s.spm.plan

theorem State.BandsChanged.bands {s t : State} {bs : List Band} (h : s.BandsChanged bs t) : t.rbt.bands = bs :=
  congrArg Rbt.bands h.rbt

theorem State.PlanOp.idle_plan {s t : State} (h : s.PlanOp t) (idle : s.spm.plan ≠ .running) : t.spm.plan = s.spm.plan :=
  h.plan.resolve_right fun rebalanced => idle rebalanced.1

theorem State.changeBands_changed {s : State} (closed : s.rbt.span = none) (bs : List Band) :
    s.BandsChanged bs (s.changeBands bs) := by
  have op := s.changeBands_planOp bs
  have sensing : s.sameSensing (s.changeBands bs) := by simp [State.sameSensing]
  by_cases same : bs = s.rbt.bands
  · have stays : s.changeBands bs = s := if_pos same
    exact ⟨by rw [stays, same], fun other => absurd same other, by simp, op.guard, sensing, op.idle_plan⟩
  · have changes : s.changeBands bs = (s.withBands bs).ceilingAndGrant.refreeze := by
      rw [State.changeBands, if_neg same, State.planReport_closed (by simpa [State.withBands] using closed)]
    refine ⟨?_, fun _ => ?_, by simp, op.guard, sensing, op.idle_plan⟩
    · rw [changes]
      simp [State.withBands]
    · rw [changes]
      generalize s.withBands bs = u
      have now : u.ceilingAndGrant.refreeze.ceilingNow = u.ceilingAndGrant.ceilingNow :=
        State.ceilingNow_congr (by simp) (by simp) (by simp) (by simp) (by simp)
      rw [now, ← u.ceilingAndGrant_now]
      simp

/-- The receipt of a request and its answer are nothing to what a request of the plan may not touch. -/
theorem State.sameSensing_answered {s u : State} {after : Nat} (h : (s.taking after .cycle).sameSensing u) (f : Frame)
    (o : Outcome) (ws : List Word) : s.sameSensing (State.finish f (u.answerWith o ws)) := by
  obtain ⟨rst, startUp, rtb, csm, -, -, -, -, tmo, cls, pending, strikePin, lidPin, -⟩ := s.taking_frame after .cycle
  obtain ⟨-, rstF, startUpF, strikePinF, lidPinF, rtbF, csmF, -, -, -, -, tmoF, clsF, pendingF⟩ :=
    State.finish_frame f (u.answerWith o ws)
  unfold State.sameSensing at *
  rw [rtbF, csmF, tmoF, clsF, strikePinF, lidPinF, rstF, startUpF, pendingF, ← rtb, ← csm, ← tmo, ← cls, ← strikePin,
    ← lidPin, ← rst, ← startUp, ← pending]
  exact h

/-- A request that its owner takes with a new table and answers. -/
theorem State.BandsChanged.answered {s u : State} {bs : List Band} {after : Nat}
    (h : (s.taking after .cycle).BandsChanged bs u) (f : Frame) (o : Outcome) (ws : List Word) :
    s.BandsChanged bs (State.finish f (u.answerWith o ws)) := by
  obtain ⟨-, -, -, -, ibe, rbt, spm, -⟩ := s.taking_frame after .cycle
  obtain ⟨-, -, -, -, -, rtbF, -, ibeF, rbtF, spmF, -, -, clsF, -⟩ := State.finish_frame f (u.answerWith o ws)
  obtain ⟨rbtU, ceiling, ibeU, guard, sensing, plan⟩ := h
  refine ⟨?_, fun other => ?_, ?_, ?_, ?_, fun idle => ?_⟩
  · rw [rbtF, ← rbt]
    exact rbtU
  · have now : (State.finish f (u.answerWith o ws)).ceilingNow = u.ceilingNow :=
      State.ceilingNow_congr (by rw [spmF]; rfl) (by rw [spmF]; rfl) rtbF (by rw [rbtF]; rfl) clsF
    rw [now, spmF]
    exact ceiling (by rwa [rbt])
  · rw [ibeF, ← ibe]
    exact ibeU
  · rw [spmF, ← spm]
    exact guard
  · exact State.sameSensing_answered sensing f o ws
  · rw [spmF, ← spm]
    exact plan (by rwa [spm])

/-- A request that its owner takes with a new table and answers has that change of the table and its answer. -/
theorem State.changeBands_answered {s : State} (closed : s.rbt.span = none) {f : Frame} (port : f.port = .cycle)
    (after : Nat) (bs : List Band) (o : Outcome) (ws : List Word) :
    ∃ t, State.finish f (((s.taking after .cycle).changeBands bs).answerWith o ws) = t ∧
      t.reply .cycle = some ⟨o, ws⟩ ∧ s.BandsChanged bs t :=
  ⟨_, rfl, finish_reply f _ o ws port, (State.changeBands_changed (s := s.taking after .cycle) closed bs).answered f o ws⟩

theorem State.BandsChanged.ceilingFits {s t : State} {bs : List Band} (h : s.BandsChanged bs t) (other : bs ≠ s.rbt.bands) :
    t.ceilingFits t.spm.ceiling := by
  rw [h.ceiling other]
  exact t.ceilingFits_now

/-! ### Declarations -/

theorem declarationFits_iff (sdist lower upper peak : Nat) : declarationFits sdist lower upper peak = true ↔
    sdist + 30 ≤ lower ∧ upper ≤ 1200 ∧ lower < upper ∧ upper - lower ≤ 200 ∧ 1 ≤ peak ∧ peak ≤ 9999 := by
  simp only [declarationFits, between, Bool.and_eq_true, decide_eq_true_eq, and_assoc]

/-- A declaration merged into a band (R62). -/
theorem Band.merge_declared (b : Band) (lower upper peak : Nat) :
    b.merge { declaredBand lower upper peak with hits := 1 } = b.takesIn lower upper peak .declared := by
  cases origin : b.origin with
  | calibrated =>
    simp [Band.merge, Band.takesIn, declaredBand, Origin.higher, Band.differs, origin, Bool.or_assoc, Bool.or_comm]
  | declared => simp [Band.merge, Band.takesIn, declaredBand, Origin.higher, origin]
  | learned => simp [Band.merge, Band.takesIn, declaredBand, Origin.higher, origin]

/-- What takes in a declaration is not LEARNED (R62). -/
theorem Band.Covers.origin_ne_learned {a b : Band} {lower upper peak : Nat}
    (h : a.Covers (b.takesIn lower upper peak .declared)) : a.origin ≠ .learned := by
  intro learned
  have rank := h.origin
  rw [learned, ← Band.merge_declared] at rank
  have declared := (Band.merge_covers b { declaredBand lower upper peak with hits := 1 }).2.origin
  exact absurd (rank.trans declared) (by simp [declaredBand, Origin.code])

/-- A declaration or candidate goes into the near band with the lowest lower edge, of which a table has only one (R67). -/
theorem TableFits.placeBand_near {sdist : Nat} {bs : List Band} (h : TableFits sdist bs) {b d : Band} (mem : b ∈ bs)
    (near : d.near b = true) (lowest : ∀ a ∈ bs, d.near a = true → b.lower ≤ a.lower) :
    Machine.placeBand d bs = (Machine.mergeInto b { d with hits := 1 } bs, .merged b.id) := by
  unfold Machine.placeBand
  cases found : lowestWhere d.near bs with
  | none => exact absurd near (by simp [lowestWhere_none.1 found b mem])
  | some recv =>
    obtain ⟨memRecv, nearRecv, first⟩ := lowestWhere_some found
    have lower : recv.lower = b.lower := Nat.le_antisymm (first b mem near) (lowest recv memRecv nearRecv)
    have order (a : Band) (k : a ∈ bs) : a.lower < a.upper := ((Band.fits_iff sdist a).1 (h.fits a k)).2.2.1
    have touch : recv.overlaps b = true := by
      have := order b mem
      have := order recv memRecv
      rw [Band.overlaps_iff]
      omega
    rw [h.eq_of_overlaps memRecv mem touch]

/-- A declaration or candidate apart from all bands takes the lowest FREE slot (R67). -/
theorem placeBand_free {bs : List Band} {d : Band} {n : Nat} (away : ∀ a ∈ bs, d.near a = false)
    (free : ∀ a ∈ bs, a.id ≠ n) (taken : ∀ m < n, ∃ a ∈ bs, a.id = m) (slot : n < 6) :
    placeBand d bs = (putBand { d with id := n, hits := 0 } bs, .placed n) := by
  have lowest : freeSlot bs = some n := by
    refine List.find?_range_eq_some.2 ⟨by simpa using free, List.mem_range.2 slot, fun m below => ?_⟩
    obtain ⟨a, mem, id⟩ := taken m below
    simp only [Bool.not_eq_true', List.all_eq_false]
    exact ⟨a, mem, by simp [id]⟩
  unfold placeBand
  rw [lowestWhere_none.2 away, lowest]

/-- Six bands fill the table (R60). -/
theorem TableFits.freeSlot_none {sdist : Nat} {bs : List Band} (h : TableFits sdist bs) (full : bs.length = 6) :
    freeSlot bs = none := by
  cases found : freeSlot bs with
  | none => rfl
  | some n =>
    obtain ⟨slot, free⟩ := freeSlot_spec found
    have nodup : (n :: bs.map Band.id).Nodup :=
      List.nodup_cons.2 ⟨by simpa using free, List.pairwise_map.2 (h.rise.imp fun k => Nat.ne_of_lt k)⟩
    have within : n :: bs.map Band.id ⊆ List.range 6 := by
      intro m mem
      rcases List.mem_cons.1 mem with rfl | mem
      · exact List.mem_range.2 slot
      · obtain ⟨a, k, rfl⟩ := List.mem_map.1 mem
        exact List.mem_range.2 ((Band.fits_iff sdist a).1 (h.fits a k)).1
    have short := (nodup.subperm within).length_le
    simp [full] at short

/-- With no FREE slot a declaration or candidate apart from all bands finds no place (R67). -/
theorem TableFits.placeBand_full {sdist : Nat} {bs : List Band} (h : TableFits sdist bs) {d : Band}
    (away : ∀ a ∈ bs, d.near a = false) (full : bs.length = 6) : Machine.placeBand d bs = (bs, .full) := by
  unfold Machine.placeBand
  rw [lowestWhere_none.2 away, h.freeSlot_none full]

/-- A merge that overlaps no other band changes the receiving band alone (R62, R63). -/
theorem TableFits.mergeInto_alone {sdist : Nat} {bs : List Band} (h : TableFits sdist bs) {recv inc : Band} (mem : recv ∈ bs)
    (apart : ∀ a ∈ bs, a.id ≠ recv.id → a.upper < (recv.merge inc).lower ∨ (recv.merge inc).upper < a.lower) :
    Machine.mergeInto recv inc bs = bs.map (fun a => if a.id = recv.id then recv.merge inc else a) := by
  have others : bandsApart (Machine.putBand (recv.merge inc) (removeBand recv.id bs)) := by
    refine (h.sublist (removeBand_sublist recv.id bs)).apart.putBand (fun a k => (mem_removeBand.1 k).2) fun a k => ?_
    obtain ⟨mema, other⟩ := mem_removeBand.1 k
    exact (Band.apart_iff _ _).2 (apart a mema other).symm
  rw [Machine.mergeInto, mergeChain_of_apart others]
  exact (putBand_removeBand (recv.merge inc) bs).trans (putBand_eq_map h.rise ⟨recv, mem, rfl⟩)

theorem ownDeclare_range {f : Frame} {s : State}
    (bad : ¬ declarationFits s.sdist (f.param 0) (f.param 1) (f.param 2) = true) : ownDeclare f s = s.answer .range :=
  if_neg bad

theorem ownDeclare_full {f : Frame} {s : State} {d : Band} {bs : List Band}
    (fits : declarationFits s.sdist (f.param 0) (f.param 1) (f.param 2) = true)
    (asked : declaredBand (f.param 0) (f.param 1) (f.param 2) = d) (place : placeBand d s.rbt.bands = (bs, .full)) :
    ownDeclare f s = s.answer .full := by
  rw [ownDeclare, if_pos fits, asked, place]

theorem ownDeclare_placed {f : Frame} {s : State} {d : Band} {bs : List Band} {id : Nat}
    (fits : declarationFits s.sdist (f.param 0) (f.param 1) (f.param 2) = true)
    (asked : declaredBand (f.param 0) (f.param 1) (f.param 2) = d) (place : placeBand d s.rbt.bands = (bs, .placed id)) :
    ownDeclare f s = (s.changeBands bs).answerWith .done [word id] := by
  rw [ownDeclare, if_pos fits, asked, place]

theorem ownDeclare_merged {f : Frame} {s : State} {d : Band} {bs : List Band} {id : Nat}
    (fits : declarationFits s.sdist (f.param 0) (f.param 1) (f.param 2) = true)
    (asked : declaredBand (f.param 0) (f.param 1) (f.param 2) = d) (place : placeBand d s.rbt.bands = (bs, .merged id)) :
    ownDeclare f s = (s.changeBands bs).answerWith .adjusted [word id] := by
  rw [ownDeclare, if_pos fits, asked, place]

theorem declare_param {r : Request} {lower upper peak : Word} (params : r.params = [lower, upper, peak]) :
    (frameOf 8#8 5#8 r).param 0 = lower.toNat ∧ (frameOf 8#8 5#8 r).param 1 = upper.toNat ∧
      (frameOf 8#8 5#8 r).param 2 = peak.toNat := by
  have words (i : Nat) : (frameOf 8#8 5#8 r).param i = wordAt [lower, upper, peak] i := congrArg (wordAt · i) params
  exact ⟨words 0, words 1, words 2⟩

/-- Settles O44, by the tests of R66 and the three placings of R67. -/
theorem declarePlacesABand : Obligations.DeclarePlacesABand := by
  intro after lower upper peak r s takes params safe closed
  have table := (State.tableSafe_of_safe safe).table
  have asks : exec (.declare after r) s =
      .next (State.finish (frameOf 8#8 5#8 r) (ownDeclare (frameOf 8#8 5#8 r) (s.taking after .cycle))) :=
    received_takes takes after ownDeclare 8#8 5#8 [3] (by decide) (by decide)
  obtain ⟨first, second, third⟩ := declare_param params
  have test : declarationFits s.sdist ((frameOf 8#8 5#8 r).param 0) ((frameOf 8#8 5#8 r).param 1)
      ((frameOf 8#8 5#8 r).param 2) = declarationFits s.sdist lower.toNat upper.toNat peak.toNat := by
    rw [first, second, third]
  have asked : declaredBand ((frameOf 8#8 5#8 r).param 0) ((frameOf 8#8 5#8 r).param 1) ((frameOf 8#8 5#8 r).param 2) =
      declaredBand lower.toNat upper.toNat peak.toNat := by rw [first, second, third]
  generalize hd : declaredBand lower.toNat upper.toNat peak.toNat = d at asked
  have fitsIff := declarationFits_iff s.sdist lower.toNat upper.toNat peak.toNat
  have nearIff (b : Band) : d.near b = true ↔ b.lower ≤ upper.toNat + 20 ∧ lower.toNat ≤ b.upper + 20 := by
    rw [← hd, Band.near_iff]
    exact and_comm
  have awayIff (b : Band) : d.near b = false ↔ ¬ (b.lower ≤ upper.toNat + 20 ∧ lower.toNat ≤ b.upper + 20) := by
    rw [← nearIff, Bool.not_eq_true]
  have answered := State.changeBands_answered closed (f := frameOf 8#8 5#8 r) takes.1 after
  refine ⟨fun bad => ?_, fun fits away full => ?_, fun n fits away taken slot => ?_, fun b mem fits near lowest => ?_⟩
  · rw [asks, ownDeclare_range (s := s.taking after .cycle) (fun good => bad (fitsIff.1 (test.symm.trans good)))]
    exact finish_justAnswers_nil after _ takes.1 .range
  all_goals have good := test.trans (fitsIff.2 fits)
  · have place := table.placeBand_full (fun b mem => (awayIff b).2 (away b mem)) full
    rw [asks, ownDeclare_full (s := s.taking after .cycle) good asked place]
    exact finish_justAnswers_nil after _ takes.1 .full
  · have place := placeBand_free (fun b mem => (awayIff b).2 (away b mem).1) (fun b mem => (away b mem).2) taken slot
    rw [ownDeclare_placed (s := s.taking after .cycle) good asked place] at asks
    have new : putBand { d with id := n, hits := 0 } s.rbt.bands ≠ s.rbt.bands := fun same =>
      (away _ (same ▸ mem_putBand.2 (Or.inl rfl))).2 rfl
    obtain ⟨t, next, reply, h⟩ := answered (putBand { d with id := n, hits := 0 } s.rbt.bands) .done [word n]
    refine ⟨t, asks.trans (congrArg _ next), reply, ?_, h.ceilingFits new, h.ibe, h.guard, h.sensing, h.plan⟩
    rw [h.bands, ← hd]
    simp [putBand, declaredBand]
  · have place := table.placeBand_near mem ((nearIff b).2 near) (fun a k m => lowest a k ((nearIff a).1 m))
    rw [ownDeclare_merged (s := s.taking after .cycle) good asked place] at asks
    have edges : Band.edgesFit s.sdist { d with hits := 1 } := hd ▸ declarationFits_edgesFit (fitsIff.2 fits)
    have merged : b.merge { d with hits := 1 } = b.takesIn lower.toNat upper.toNat peak.toNat .declared :=
      hd ▸ b.merge_declared _ _ _
    have alone := table.mergeInto_alone (inc := { d with hits := 1 }) mem
    obtain ⟨-, length, a, mema, covers⟩ := table.mergeInto mem edges
    rw [merged] at alone covers
    generalize mergeInto b { d with hits := 1 } s.rbt.bands = bs at *
    obtain ⟨t, next, reply, h⟩ := answered bs .adjusted [word b.id]
    refine ⟨t, asks.trans (congrArg _ next), reply, ?_, ?_, ?_, ?_, h.ibe, h.guard, h.sensing, h.plan⟩
    all_goals rw [h.bands]
    · exact ⟨a, mema, covers.lower, covers.upper, covers.peak, covers.origin_ne_learned⟩
    · exact alone
    · exact length
    · exact h.ceilingFits

end Sys2Proof.Machine
end

section
/-! RETIRE BAND and PIN: the tests of a request that names a band, and the change of the one band (R72, R73). -/

namespace Sys2Proof.Machine

/-! ### The band that a request names -/

theorem State.withBand_range {s : State} {id : Nat} (high : 5 < id) (g : Band → Reply) :
    s.withBand id g = s.answer .range := if_pos high

theorem State.withBand_absent {s : State} {id : Nat} (low : id ≤ 5) (free : ∀ b ∈ s.rbt.bands, b.id ≠ id)
    (g : Band → Reply) : s.withBand id g = s.answer .absent := by
  rw [State.withBand, if_neg (Nat.not_lt.2 low), bandAt_none free]

/-- An id of the table names its one band, and is in range (R60). -/
theorem State.withBand_found {s : State} (table : TableFits s.sdist s.rbt.bands) {b : Band} (mem : b ∈ s.rbt.bands)
    (g : Band → Reply) : s.withBand b.id g = g b := by
  have slot : b.id < 6 := ((Band.fits_iff _ b).1 (table.fits b mem)).1
  rw [State.withBand, if_neg (by omega), bandAt_mem table.rise mem]

/-! ### PIN -/

/-- The pin put to a LEARNED band (R73). -/
theorem putPin_eq_map {bs : List Band} (rise : idsRise bs) {b : Band} (mem : b ∈ bs) (pin : Bool) :
    putBand { b with pinned := pin } bs = bs.map (fun a => if a.id = b.id then { a with pinned := pin } else a) := by
  have put := putBand_eq_map (b := { b with pinned := pin }) rise ⟨b, mem, rfl⟩
  refine put.trans (List.map_congr_left fun a mema => ?_)
  by_cases same : a.id = b.id
  · rw [rise.unique mema mem same]
  · rw [if_neg same, if_neg same]

/-- A pin that is as it was leaves the table. -/
theorem putPin_same {bs : List Band} (rise : idsRise bs) {b : Band} (mem : b ∈ bs) {pin : Bool} (same : b.pinned = pin) :
    putBand { b with pinned := pin } bs = bs := by
  subst same
  refine (putBand_eq_map rise ⟨b, mem, rfl⟩).trans ((List.map_congr_left fun a mema => ?_).trans (List.map_id bs))
  split
  · next id => exact (rise.unique mema mem id).symm
  · rfl

/-- Settles O45, by the tests of R72 and R73 and the one band that each request changes. -/
theorem retireAndPinBands : Obligations.RetireAndPinBands := by
  intro after r v pin s takesR takesV params key safe closed
  have table := (State.tableSafe_of_safe safe).table
  generalize hu : s.taking after .cycle = u
  have rbt : u.rbt = s.rbt := by rw [← hu]; exact (s.taking_frame after .cycle).2.2.2.2.2.1
  have retires : exec (.retireBand after r) s =
      .next (State.finish (frameOf 5#8 5#8 r) (u.withBand r.key.toNat (fun b =>
        if b.origin = .calibrated then u.answer .protect
        else State.answer (u.changeBands (removeBand b.id u.rbt.bands)) .done))) :=
    hu ▸ received_takes takesR after ownRetireBand 5#8 5#8 [0] (by decide) (by decide)
  have asked : (frameOf 9#8 5#8 v).param 0 = pin.toNat := by
    change wordAt v.params 0 = _
    rw [params]
    rfl
  have pins : exec (.pin after v) s = .next (State.finish (frameOf 9#8 5#8 v)
      (if 1 < pin.toNat then u.answer .range
      else u.withBand r.key.toNat (fun b =>
        if b.origin = .learned then
          State.answer (u.changeBands (putBand { b with pinned := pin.toNat = 1 } u.rbt.bands)) .done
        else u.answer .access))) := by
    rw [← asked, ← key, ← hu]
    exact received_takes takesV after ownPin 9#8 5#8 [1] (by decide) (by decide)
  have justR (o : Outcome) : .next (State.finish (frameOf 5#8 5#8 r) (u.answer o)) =
      s.justAnswers after ⟨r.addr, 5#8, 5#8⟩ o [] := hu ▸ finish_justAnswers_nil after _ takesR.1 o
  have justV (o : Outcome) : .next (State.finish (frameOf 9#8 5#8 v) (u.answer o)) =
      s.justAnswers after ⟨v.addr, 9#8, 5#8⟩ o [] := hu ▸ finish_justAnswers_nil after _ takesV.1 o
  have ranged (h : 1 < pin.toNat) : exec (.pin after v) s = s.justAnswers after ⟨v.addr, 9#8, 5#8⟩ .range [] := by
    rw [pins, if_pos h, justV]
  refine ⟨fun high => ⟨?_, ?_⟩, ranged, fun low free => ⟨?_, fun good => ?_⟩, fun b mem id => ?_⟩
  · rw [retires, State.withBand_range high, justR]
  · by_cases h : 1 < pin.toNat
    · exact ranged h
    · rw [pins, if_neg h, State.withBand_range high, justV]
  · rw [retires, State.withBand_absent low (rbt ▸ free), justR]
  · rw [pins, if_neg (Nat.not_lt.2 good), State.withBand_absent low (rbt ▸ free), justV]
  have tableU : TableFits u.sdist u.rbt.bands := by rw [← hu]; exact table
  rw [← id, State.withBand_found tableU (rbt ▸ mem), rbt] at retires pins
  refine ⟨fun origin => ?_, fun origin => ?_, fun good origin => ?_, fun good origin same => ?_, fun good origin other => ?_⟩
  · rw [retires, if_pos origin, justR]
  · rw [if_neg origin] at retires
    have freed : removeBand b.id s.rbt.bands ≠ s.rbt.bands := fun same =>
      absurd (congrArg List.length same) (Nat.ne_of_lt (removeBand_length mem))
    obtain ⟨t, next, reply, h⟩ :=
      State.changeBands_answered closed (f := frameOf 5#8 5#8 r) takesR.1 after (removeBand b.id s.rbt.bands) .done []
    rw [hu] at next
    exact ⟨t, retires.trans (congrArg _ next), reply, h.bands, h.ceilingFits freed, h.ibe, h.guard, h.sensing, h.plan⟩
  all_goals rw [if_neg (Nat.not_lt.2 good)] at pins
  · rw [pins, if_neg origin, justV]
  · rw [pins, if_pos origin, putPin_same table.rise mem same, State.changeBands, if_pos (by rw [rbt]), justV]
  · rw [if_pos origin] at pins
    have mapped := putPin_eq_map table.rise mem (decide (pin.toNat = 1))
    have flipped : s.rbt.bands.map (fun a => if a.id = b.id then { a with pinned := decide (pin.toNat = 1) } else a) =
        s.rbt.bands.map (fun a => if a.id = b.id then { a with pinned := !a.pinned } else a) := by
      refine List.map_congr_left fun a mema => ?_
      split
      · next same => rw [table.rise.unique mema mem same, Bool.eq_not.2 other.symm]
      · rfl
    have new : putBand { b with pinned := decide (pin.toNat = 1) } s.rbt.bands ≠ s.rbt.bands := by
      intro same
      have put : { b with pinned := decide (pin.toNat = 1) } ∈ s.rbt.bands := same ▸ mem_putBand.2 (Or.inl rfl)
      exact other (congrArg Band.pinned (table.rise.unique put mem rfl)).symm
    obtain ⟨t, next, reply, h⟩ := State.changeBands_answered closed (f := frameOf 9#8 5#8 v) takesV.1 after
      (putBand { b with pinned := decide (pin.toNat = 1) } s.rbt.bands) .done []
    rw [hu] at next
    exact ⟨t, pins.trans (congrArg _ next), reply, h.bands.trans (mapped.trans flipped), h.ceilingFits new, h.ibe, h.guard,
      h.sensing, h.plan⟩

end Sys2Proof.Machine
end

section
/-! CLEAR: the plan emptied, its unpinned LEARNED bands freed, and what of the part that leaves (R74, R107). -/

namespace Sys2Proof.Machine

/-! ### A change of the table in a plan that does not run -/

/-- An evaluation in a plan that does not run posts nothing, nor does a derivation (R110). -/
theorem State.ceilingAndGrant_notices {s : State} (idle : s.spm.plan ≠ .running) :
    s.ceilingAndGrant.lkp.notices = s.lkp.notices := by
  rw [State.ceilingAndGrant, State.derive_idle (s := s.computeCeiling) .held idle]
  exact (State.evaluateGrant_rest _ _).2.2

theorem State.changeBands_notices {s : State} (closed : s.rbt.span = none) (idle : s.spm.plan ≠ .running) (bs : List Band) :
    (s.changeBands bs).lkp.notices = s.lkp.notices := by
  unfold State.changeBands
  split
  · rfl
  · rw [State.planReport_closed (by simpa [State.withBands] using closed)]
    simpa using State.ceilingAndGrant_notices (s := s.withBands bs) idle

/-- A ring whose frozen flag is right takes nothing of a band change (R143). -/
theorem State.changeBands_ric {s : State} (right : s.ric.frozen = s.freezeCondition) (bs : List Band) :
    (s.changeBands bs).ric = s.ric := by
  unfold State.changeBands
  split
  · rfl
  · have op := (s.withBands_planOp bs).trans (State.ceilingAndGrant_planOp _)
    have reads := op.freezeCondition (by simp) (by simp) (by simp)
    rw [State.planReport_ric (by rw [reads]; simpa using right)]
    simp

/-! ### The plan emptied -/

/-- The plan with no record, EMPTY, and the partner told where it was not EMPTY before (R93, R107). -/
def State.emptied (s : State) : State := State.planBecomes .empty { s with spm := { s.spm with plateaus := [] } }

theorem State.clearPlan_eq (s : State) :
    s.clearPlan = (s.emptied.changeBands (clearLearned s.rbt.bands)).refreshGrant.planReport := rfl

theorem State.emptied_spm (s : State) : s.emptied.spm = { s.spm with plan := .empty, plateaus := [] } := by
  unfold State.emptied State.planBecomes
  split
  · next was => rw [← was]
  · rfl

/-- No block but the plan and the notices takes anything of it. -/
theorem State.emptied_frame (s : State) :
    s.emptied.rbt = s.rbt ∧ s.emptied.ibe = s.ibe ∧ s.emptied.ric = s.ric ∧ s.emptied.lkp.part = s.lkp.part ∧
      s.sameSensing s.emptied := by
  unfold State.emptied State.planBecomes
  split <;> exact ⟨rfl, rfl, rfl, rfl, rfl, rfl, rfl, rfl, rfl, rfl, rfl, rfl, rfl⟩

theorem State.emptied_posts {s : State} (was : s.spm.plan ≠ .empty) : s.emptied.lkp.notices.planState = true := by
  rw [State.emptied, State.planBecomes, if_neg was]
  rfl

theorem State.emptied_silent {s : State} (was : s.spm.plan = .empty) : s.emptied.lkp = s.lkp := by
  rw [State.emptied, State.planBecomes, if_pos was]

/-! ### CLEAR -/

/-- What a CLEAR that is taken makes of the state (R107). -/
structure State.Cleared (s t : State) : Prop where
  plan : t.spm.plan = .empty
  plateaus : t.spm.plateaus = []
  bands : t.rbt.bands = clearLearned s.rbt.bands
  posts : s.spm.plan ≠ .empty → t.lkp.notices.planState = true
  silent : s.spm.plan = .empty → t.lkp.notices = s.lkp.notices
  guard : t.spm.guard = s.spm.guard
  ibe : t.ibe = s.ibe
  sensing : s.sameSensing t
  ring : s.ric.frozen = s.freezeCondition → t.ric = s.ric

theorem State.clearPlan_cleared {s : State} (idle : s.spm.plan.underway = false) (closed : s.rbt.span = none) :
    s.Cleared s.clearPlan := by
  obtain ⟨rbt, ibe, ric, part, sensing⟩ := s.emptied_frame
  have spm := s.emptied_spm
  have posts := s.emptied_posts
  have silent := s.emptied_silent
  rw [State.clearPlan_eq]
  generalize s.emptied = u at *
  have unopened : u.rbt.span = none := by rw [rbt]; exact closed
  have rests : u.spm.plan ≠ .running := by rw [spm]; exact PlanState.noConfusion
  have changed := State.changeBands_changed unopened (clearLearned s.rbt.bands)
  have opChange := u.changeBands_planOp (clearLearned s.rbt.bands)
  have noticesChange := State.changeBands_notices unopened rests (clearLearned s.rbt.bands)
  have ringChange := State.changeBands_ric (s := u) (bs := clearLearned s.rbt.bands)
  generalize u.changeBands (clearLearned s.rbt.bands) = v at *
  have opGrant := v.refreshGrant_planOp
  have noticesGrant := (v.evaluateGrant_rest v.spm.grant.speed).2.2
  have spanGrant : v.refreshGrant.rbt.span = none := by simpa [changed.rbt] using unopened
  have op := (opChange.trans opGrant).trans v.refreshGrant.planReport_planOp
  have reportClosed := State.planReport_closed spanGrant
  refine ⟨?_, ?_, ?_, fun was => ?_, fun was => ?_, ?_, ?_, ?_, fun right => ?_⟩
  · rw [op.idle_plan rests, spm]
  · have cores := op.cores
    rw [spm] at cores
    exact List.map_eq_nil_iff.1 cores
  · rw [reportClosed]
    simpa using changed.bands
  · exact op.notices .planState (posts was)
  · rw [reportClosed, ← silent was, ← noticesChange, ← noticesGrant]
    simp [State.refreshGrant]
  · rw [op.guard, spm]
  · rw [reportClosed, ← ibe, ← changed.ibe]
    simp
  · obtain ⟨rtbS, csmS, tmoS, clsS, strikePinS, lidPinS, rstS, startUpS, pendingS⟩ := sensing
    obtain ⟨rtbC, csmC, tmoC, clsC, strikePinC, lidPinC, rstC, startUpC, pendingC⟩ := changed.sensing
    simp [State.sameSensing, *]
  · have reads : u.freezeCondition = s.freezeCondition := by
      obtain ⟨rtb, -, tmo, cls, -⟩ := sensing
      refine State.freezeCondition_congr rtb tmo cls part ?_
      rw [spm]
      cases plan : s.spm.plan <;> simp [plan, PlanState.underway] at idle ⊢
    have kept := ringChange (by rw [reads, ric]; exact right)
    have readsGrant := (opChange.trans opGrant).freezeCondition (by simp [changed.sensing.1])
      (by simp [changed.sensing.2.2.1]) (by simp [changed.sensing.2.2.2.1])
    rw [State.planReport_ric (by rw [readsGrant, reads]; simpa [kept, ric] using right)]
    simp [kept, ric]

/-- Settles O41: a CLEAR that is taken changes what `State.Cleared` says. -/
theorem clearEmptiesThePlan : Obligations.ClearEmptiesThePlan := by
  intro after r s takes
  have asks : exec (.clear after r) s =
      .next (State.finish (commandFrame 1#8 6#16 r) (ownClear (commandFrame 1#8 6#16 r) (s.taking after .cycle))) :=
    received_takesCommand takes after ownClear 1#8 6#16 [0] (by decide) (by decide)
  obtain ⟨-, -, -, -, ibe, rbt, spm, ric, -⟩ := s.taking_frame after .cycle
  have noticesTaking : (s.taking after .cycle).lkp.notices = s.lkp.notices := (State.setPort_lkp _ _ _).2.2.1
  have freeze := s.freezeCondition_taking after .cycle
  refine ⟨fun underway => ?_, fun idle closed => ?_⟩
  · rw [asks, ownClear, if_pos (by rw [spm]; exact underway)]
    exact finish_justAnswers_nil after _ takes.1 .access
  · have cleared := State.clearPlan_cleared (s := s.taking after .cycle) (by rw [spm]; exact idle) (by rw [rbt]; exact closed)
    rw [ownClear, if_neg (by rw [spm, idle]; decide), State.answer] at asks
    have sensing := State.sameSensing_answered cleared.sensing (commandFrame 1#8 6#16 r) .done []
    generalize s.taking after .cycle = u at *
    generalize u.clearPlan = v at *
    obtain ⟨-, -, -, -, -, -, -, ibeF, rbtF, spmF, ricF, -⟩ :=
      State.finish_frame (commandFrame 1#8 6#16 r) (v.answerWith .done [])
    have noticesF : (State.finish (commandFrame 1#8 6#16 r) (v.answerWith .done [])).lkp.notices = v.lkp.notices :=
      (State.setPort_lkp _ _ _).2.2.1
    refine ⟨_, asks, finish_reply _ _ _ _ takes.1, ?_, ?_, ?_, fun was => ?_, fun was => ?_, ?_, ?_, ?_, fun safe => ?_⟩
    · exact (congrArg Spm.plan spmF).trans cleared.plan
    · exact (congrArg Spm.plateaus spmF).trans cleared.plateaus
    · refine (congrArg Rbt.bands rbtF).trans (cleared.bands.trans ?_)
      rw [rbt, clearLearned]
      exact List.filter_congr fun b _ => by simp
    · exact (congrArg NoticeSet.planState noticesF).trans (cleared.posts (by rw [spm]; exact was))
    · exact noticesF.trans ((cleared.silent (by rw [spm]; exact was)).trans noticesTaking)
    · exact (congrArg Spm.guard spmF).trans (cleared.guard.trans (by rw [spm]))
    · exact ibeF.trans (cleared.ibe.trans ibe)
    · exact sensing
    · exact ricF.trans ((cleared.ring (by rw [ric, freeze]; exact State.ringSafe_frozen safe)).trans ric)

end Sys2Proof.Machine
end

section
/-! Keyed lookups: what each owner answers to a key, and the receipt of a LOOKUP (R75, R95, R101, R147, R182). -/

namespace Sys2Proof.Machine

/-! ### Slots and positions -/

theorem State.withSlot_range {s : State} {slot : Nat} (high : 7 < slot) (g : Plateau → Reply) :
    s.withSlot slot g = s.answer .range := if_pos high

theorem State.withSlot_absent {s : State} {slot : Nat} (low : slot ≤ 7) (free : ∀ p ∈ s.spm.plateaus, p.slot ≠ slot)
    (g : Plateau → Reply) : s.withSlot slot g = s.answer .absent := by
  have none : s.plateauAt slot = none := List.find?_eq_none.2 fun p mem => by simpa using free p mem
  rw [State.withSlot, if_neg (Nat.not_lt.2 low), none]

/-- A slot of the plan names its one record, and is in range (R92). -/
theorem State.withSlot_found {s : State} (consistent : s.planConsistent = true) {p : Plateau} (mem : p ∈ s.spm.plateaus)
    (g : Plateau → Reply) : s.withSlot p.slot g = g p := by
  obtain ⟨nodup, slots, -⟩ := State.planConsistent_slots consistent
  have slot := slots p mem
  rw [State.withSlot, if_neg (by omega), State.plateauAt_mem nodup mem]

/-- The position of a record is that of its slot, since slots are distinct (R92). -/
theorem State.positionOf_slot {s : State} (nodup : (s.spm.plateaus.map Plateau.slot).Nodup) {i : Nat} {p : Plateau}
    (stands : s.spm.plateaus[i]? = some p) : s.positionOf p.slot = i + 1 := by
  obtain ⟨below, rfl⟩ := List.getElem?_eq_some_iff.1 stands
  refine congrArg (· + 1) (List.findIdx_eq below |>.2 ⟨by simp, fun j before => ?_⟩)
  have other : s.spm.plateaus[j].slot ≠ s.spm.plateaus[i].slot := fun same => by
    have index := (nodup.getElem_inj_iff (i := j) (j := i) (hi := by simpa using before.trans below)
      (hj := by simpa using below)).1 (by simpa using same)
    omega
  simpa using other

/-! ### Chambers, the queue and items -/

theorem ownLookupChamber_range {f : Frame} (high : 3 < f.key.toNat) (s : State) :
    ownLookupChamber f s = s.answer .range := dif_neg (by omega)

theorem ownLookupChamber_found {f : Frame} {j : Fin 4} (key : f.key.toNat = j.val) (s : State) :
    ownLookupChamber f s = s.answerWith .done (s.chamberWords j) := by
  have named : (⟨f.key.toNat, key ▸ j.isLt⟩ : Fin 4) = j := Fin.ext key
  rw [ownLookupChamber, dif_pos (key ▸ j.isLt), named]

theorem ownLookupQueue_summary {f : Frame} (key : f.key = 0#16) (s : State) :
    ownLookupQueue f s = s.answerWith .done s.queueWords := by
  rw [ownLookupQueue, key]
  rfl

theorem ownLookupQueue_range {f : Frame} (high : 8 < f.key.toNat) (s : State) :
    ownLookupQueue f s = s.answer .range := by
  obtain ⟨n, key⟩ := Nat.exists_eq_succ_of_ne_zero (show f.key.toNat ≠ 0 by omega)
  rw [ownLookupQueue, key]
  exact if_pos (by omega)

theorem ownLookupQueue_absent {f : Frame} {n : Nat} {s : State} (key : f.key.toNat = n + 1) (low : n ≤ 7)
    (absent : s.ric.queue[n]? = none) : ownLookupQueue f s = s.answer .absent := by
  rw [ownLookupQueue, key]
  refine (if_neg (Nat.not_lt.2 low)).trans ?_
  rw [absent]

theorem ownLookupQueue_found {f : Frame} {n : Nat} {s : State} {o : Order} (key : f.key.toNat = n + 1) (low : n ≤ 7)
    (present : s.ric.queue[n]? = some o) : ownLookupQueue f s = s.answerWith .done (o.words (n + 1)) := by
  rw [ownLookupQueue, key]
  refine (if_neg (Nat.not_lt.2 low)).trans ?_
  rw [present]

theorem ownLookupCal_absent {f : Frame} (key : f.key ≠ 0#16) (unknown : specOf f.key.toNat = none) (s : State) :
    ownLookupCal f s = s.answer .absent := by
  rw [ownLookupCal, if_neg key, unknown]

/-- An item's record shows its own number, and item 6 no words (R182). -/
theorem ownLookupCal_found {f : Frame} {s : State} {spec : ItemSpec} {i : Item} (key : f.key ≠ 0#16)
    (known : specOf f.key.toNat = some spec) (item : s.cls.item f.key.toNat = some i) :
    ownLookupCal f s = s.answerWith .done
      ([word f.key.toNat, flagWord (!spec.fixed), word i.source.code] ++
        if f.key = 6#16 then List.replicate 16 0xFFFF#16 else padWords 16 (s.cls.inForce f.key.toNat)) := by
  have num : i.num = f.key.toNat := by simpa using List.find?_some item
  have six : f.key.toNat = 6 ↔ f.key = 6#16 := ⟨fun same => BitVec.eq_of_toNat_eq same, fun same => same ▸ rfl⟩
  rw [ownLookupCal, if_neg key, known, item]
  simp only [Cls.itemWords, num, six]
  rfl

/-! ### The receipt of a LOOKUP -/

/-- A LOOKUP whose owner answers without a change of state is answered and changes nothing. -/
theorem received_lookup {s : State} {r : Request} (takes : s.takes 0 r) (after : Nat) {own : Owner} {cls : Byte}
    (form : (⟨1#8, cls, none, [0]⟩ : Form) ∈ forms) {o : Outcome} {ws : List Word}
    (answers : own (frameOf 1#8 cls r) (s.taking after .cycle) = (s.taking after .cycle).answerWith o ws) :
    received after own (frameOf 1#8 cls r) s = s.justAnswers after ⟨r.addr, 1#8, cls⟩ o ws := by
  rw [received_takes takes after own 1#8 cls [0] form (by decide), answers]
  exact finish_justAnswers after (frameOf 1#8 cls r) takes.1 o ws

/-- Settles O30, by the receipt of a LOOKUP (`received_lookup`) and what each owner answers to its key. -/
theorem keyedLookupsFindTheRecord : Obligations.KeyedLookupsFindTheRecord := by
  intro after r s takes
  have plateau {o : Outcome} {ws : List Word} := received_lookup takes after (own := ownLookupPlateau) (cls := 2#8)
    (by decide) (o := o) (ws := ws)
  have band {o : Outcome} {ws : List Word} := received_lookup takes after (own := ownLookupBand) (cls := 5#8)
    (by decide) (o := o) (ws := ws)
  have chamber {o : Outcome} {ws : List Word} := received_lookup takes after (own := ownLookupChamber) (cls := 6#8)
    (by decide) (o := o) (ws := ws)
  have queue {o : Outcome} {ws : List Word} := received_lookup takes after (own := ownLookupQueue) (cls := 7#8)
    (by decide) (o := o) (ws := ws)
  have cal {o : Outcome} {ws : List Word} := received_lookup takes after (own := ownLookupCal) (cls := 10#8)
    (by decide) (o := o) (ws := ws)
  refine ⟨fun high => plateau (State.withSlot_range high _),
    fun low free => plateau (State.withSlot_absent (s := s.taking after .cycle) low free _),
    fun i p consistent stands key => plateau ?_, fun high => band (State.withBand_range high _),
    fun low free => band (State.withBand_absent (s := s.taking after .cycle) low free _), fun b mem safe key => band ?_,
    fun high => chamber (ownLookupChamber_range high _), fun j key => chamber (ownLookupChamber_found key _),
    fun key => queue (ownLookupQueue_summary key _), fun high => queue (ownLookupQueue_range high _),
    fun n low key absent => queue (ownLookupQueue_absent key low absent),
    fun n o low key present => queue (ownLookupQueue_found key low present),
    fun key unknown => cal (ownLookupCal_absent key unknown _),
    fun spec i key known item => cal (ownLookupCal_found key known item)⟩
  · have found := State.withSlot_found (s := s.taking after .cycle) consistent (List.mem_of_getElem? stands)
    have place := State.positionOf_slot (s := s.taking after .cycle) (State.planConsistent_slots consistent).1 stands
    rw [ownLookupPlateau, show (frameOf 1#8 2#8 r).key.toNat = p.slot from key.symm, found, place]
    rfl
  · rw [ownLookupBand, show (frameOf 1#8 5#8 r).key.toNat = b.id from key.symm]
    exact State.withBand_found (s := s.taking after .cycle) (State.tableSafe_of_safe safe).table mem _

end Sys2Proof.Machine
end

section
/-! The force limit (R78), settled. -/

namespace Sys2Proof.Machine

/-- Settles O53: stage A's search from above ends at the greatest speed that passes, by `isForceLimit_forceLimit`. -/
theorem forceLimitIsExact : Obligations.ForceLimitIsExact := by
  intro u kf g _
  obtain ⟨still, search⟩ := isForceLimit_forceLimit u kf g
  exact ⟨still, fun positive => search (by omega)⟩

end Sys2Proof.Machine
end

section
/-! What the safety of the grant, the ceiling in force and the grant record are read from, and what an evaluation, a derivation
and a report of SPM make of them (R85, R111 to R116, R119, R122). -/

namespace Sys2Proof.Machine

/-! ### The inputs of the ceiling -/

/-- The inputs of stages A to D are the same (R77 to R83). -/
structure State.SameInputs (s t : State) : Prop where
  update : t.spm.update = s.spm.update
  guard : t.spm.guard = s.spm.guard
  rpm : t.rpm = s.rpm
  bands : t.rbt.bands = s.rbt.bands
  value : ∀ n, t.cls.value n = s.cls.value n

theorem State.ceilingFits_congr {s t : State} (h : s.SameInputs t) {c : Ceiling} (fits : s.ceilingFits c) :
    t.ceilingFits c := by
  obtain ⟨update, guard, rpm, bands, value⟩ := h
  simpa only [State.ceilingFits, State.isBandLimit, State.blocks, State.guardFactor, State.kf, State.lcross, State.smax,
    State.sdist, update, guard, rpm, bands, value] using fits

/-- Stage D leaves no ceiling below Sdist (R82). -/
theorem State.sdist_le_ceilingNow (s : State) : s.sdist ≤ s.ceilingNow.value := le_max_right _ _

/-! ### Speeds and bands -/

/-- No band of the table holds a speed (Table 4-2, note 1). -/
def State.clearOf (s : State) (n : Nat) : Prop := ∀ b ∈ s.rbt.bands, b.inside n = false

/-- Every band keeps its distance from Sdist (R60). -/
def State.bandsAbove (s : State) : Prop := ∀ b ∈ s.rbt.bands, s.sdist + 30 ≤ b.lower

theorem Band.inside_eq_false_iff (b : Band) (n : Nat) : b.inside n = false ↔ n < b.lower ∨ b.upper < n := by
  simp only [Band.inside, Bool.and_eq_false_iff, decide_eq_false_iff_not, not_le]

theorem State.TableSafe.bandsAbove {s : State} (h : s.TableSafe) : s.bandsAbove :=
  fun b mem => ((b.fits_iff _).1 (h.table.fits b mem)).2.1

theorem State.bandsAbove.clearOf_sdist {s : State} (h : s.bandsAbove) : s.clearOf s.sdist :=
  fun b mem => (b.inside_eq_false_iff _).2 (Or.inl (by have := h b mem; omega))

theorem State.bandsAbove.margin {s : State} (h : s.bandsAbove) : ∀ b ∈ s.rbt.bands, 20 ≤ b.lower :=
  fun b mem => by have := h b mem; omega

theorem isMovedOut_le {bs : List Band} {c d : Nat} (h : isMovedOut bs c d) : d ≤ c := by
  obtain ⟨path, -⟩ := h
  induction path with
  | refl => exact le_rfl
  | tail _ move ih =>
    obtain ⟨b, -, low, -, -, rfl⟩ := move
    omega

theorem State.clearOf_outOfBands {s : State} (h : s.bandsAbove) (n : Nat) : s.clearOf (s.outOfBands n) :=
  fun b mem => (b.inside_eq_false_iff _).2 ((s.isMovedOut_outOfBands h.margin n).2 b mem)

/-! ### What is read -/

theorem State.grantSafe_iff (s : State) : s.grantSafe = true ↔
    (s.grantForced = true → s.spm.grant.speed = 0) ∧
    (s.spm.grant.speed ≠ 0 → s.spm.plan = .running ∨ s.spm.plan = .paused .rebalance) ∧
    s.spm.grant.speed ≤ s.spm.ceiling.value ∧ s.sdist ≤ s.spm.ceiling.value ∧ s.spm.grant.ceiling = s.spm.ceiling ∧
    (s.spm.grant.speed ≠ 0 → s.clearOf s.spm.grant.speed) := by
  simp only [State.grantSafe, State.clearOf, Bool.and_eq_true, Bool.or_eq_true, Bool.not_eq_true', decide_eq_true_eq,
    List.all_eq_true, and_assoc, ← Bool.not_eq_true, imp_iff_not_or, not_not, or_assoc]

/-- What the reason of a grant reads of the ACTIVE record (Table 6-11). -/
def Plateau.aimed (p : Plateau) : Nat × Bool := (p.target, p.clamped)

/-- All that the safety of the grant, the ceiling in force and the grant record are read from is the same. Of the records of a
plan that does not run only the slot of the ACTIVE one is read. -/
structure State.SameGrant (s t : State) : Prop where
  rst : t.rst = s.rst
  rpm : t.rpm = s.rpm
  atRest : t.rtb.atRest = s.rtb.atRest
  bands : t.rbt.bands = s.rbt.bands
  value : ∀ n, t.cls.value n = s.cls.value n
  first : t.tmo.first = s.tmo.first
  lid : t.tmo.lid = s.tmo.lid
  part : t.lkp.part = s.lkp.part
  spm : t.spm = { s.spm with
    plateaus := t.spm.plateaus, arrival := t.spm.arrival, inWindow := t.spm.inWindow, dwellTimer := t.spm.dwellTimer }
  slot : t.active.map Plateau.slot = s.active.map Plateau.slot
  active : s.spm.plan = .running → t.active.map Plateau.aimed = s.active.map Plateau.aimed

section

variable {s t : State} (h : s.SameGrant t)
include h

theorem State.SameGrant.plan : t.spm.plan = s.spm.plan := (congrArg Spm.plan h.spm :)

theorem State.SameGrant.guard : t.spm.guard = s.spm.guard := (congrArg Spm.guard h.spm :)

theorem State.SameGrant.update : t.spm.update = s.spm.update := (congrArg Spm.update h.spm :)

theorem State.SameGrant.ceiling : t.spm.ceiling = s.spm.ceiling := (congrArg Spm.ceiling h.spm :)

theorem State.SameGrant.grant : t.spm.grant = s.spm.grant := (congrArg Spm.grant h.spm :)

theorem State.SameGrant.restartHold : t.spm.restartHold = s.spm.restartHold := (congrArg Spm.restartHold h.spm :)

theorem State.SameGrant.search : t.spm.derived = s.spm.derived ∧ t.spm.rejecting = s.spm.rejecting ∧
    t.spm.bandMoved = s.spm.bandMoved :=
  ⟨(congrArg Spm.derived h.spm :), (congrArg Spm.rejecting h.spm :), (congrArg Spm.bandMoved h.spm :)⟩

theorem State.SameGrant.inputs : s.SameInputs t := ⟨h.update, h.guard, h.rpm, h.bands, h.value⟩

end

theorem State.SameGrant.grantForced {s t : State} (h : s.SameGrant t) : t.grantForced = s.grantForced := by
  unfold State.grantForced State.tripped
  rw [h.first, h.lid, h.part, h.restartHold]

theorem State.SameGrant.grantSafe {s t : State} (h : s.SameGrant t) (safe : s.grantSafe = true) : t.grantSafe = true := by
  rw [State.grantSafe_iff] at *
  simpa only [State.clearOf, State.sdist, h.grantForced, h.bands, h.value, h.plan, h.grant, h.ceiling] using safe

theorem State.SameGrant.ceilingCurrent {s t : State} (h : s.SameGrant t) (current : s.ceilingCurrent) : t.ceilingCurrent := by
  unfold State.ceilingCurrent at *
  rw [State.inReset, h.rst, h.ceiling]
  exact current.imp_right (State.ceilingFits_congr h.inputs)

theorem any_active_of_aimed {s t : State} (h : t.active.map Plateau.aimed = s.active.map Plateau.aimed)
    (f : Nat × Bool → Bool) : t.active.any (fun p => f p.aimed) = s.active.any (fun p => f p.aimed) := by
  have read (o : Option Plateau) : o.any (fun p => f p.aimed) = (o.map Plateau.aimed).any f := by rw [Option.any_map]
  rw [read, read, h]

theorem State.SameGrant.reasonShown {s t : State} (h : s.SameGrant t) : t.reasonShown = s.reasonShown := by
  obtain ⟨derived, rejecting, moved⟩ := h.search
  unfold State.reasonShown
  rw [h.first, h.lid, h.part, h.atRest, h.plan, h.grant, h.ceiling, h.restartHold, h.update, derived, rejecting, moved]
  by_cases running : s.spm.plan = .running
  · have under (n : Nat) : t.active.any (fun p => n < p.target) = s.active.any (fun p => n < p.target) :=
      any_active_of_aimed (h.active running) (fun a => n < a.1)
    have clamped : t.active.any Plateau.clamped = s.active.any Plateau.clamped :=
      any_active_of_aimed (h.active running) Prod.snd
    simp only [under, clamped]
  · simp only [running, decide_false, Bool.false_and, Bool.false_eq_true, false_and]

theorem State.SameGrant.recordShown {s t : State} (h : s.SameGrant t) (shown : s.recordShown) : t.recordShown := by
  obtain ⟨slot, ramp, reason⟩ := shown
  refine ⟨?_, ?_, ?_⟩
  · rw [h.grant, h.slot, slot]
  · simpa only [State.rampFits, h.grant, h.rpm, h.atRest, h.bands] using ramp
  · rw [h.grant, reason, h.reasonShown]

theorem State.SameGrant.recordFits {s t : State} (h : s.SameGrant t) (fits : s.recordFits) : t.recordFits :=
  fits.imp (fun starting => h.part.trans starting) h.recordShown

theorem State.SameGrant.after {s t u : State} (k : t.SameGrant u) (h : s.SameGrant t) : s.SameGrant u where
  rst := k.rst.trans h.rst
  rpm := k.rpm.trans h.rpm
  atRest := k.atRest.trans h.atRest
  bands := k.bands.trans h.bands
  value n := (k.value n).trans (h.value n)
  first := k.first.trans h.first
  lid := k.lid.trans h.lid
  part := k.part.trans h.part
  spm := k.spm.trans (by rw [h.spm])
  slot := k.slot.trans h.slot
  active running := (k.active (h.plan.trans running)).trans (h.active running)

theorem active_of_cores {s t : State} (h : t.spm.plateaus.map Plateau.core = s.spm.plateaus.map Plateau.core) :
    t.active.map Plateau.core = s.active.map Plateau.core :=
  find_core Plateau.core_isActive h

/-- What a record's core shows is the same of ACTIVE records of the same core. -/
theorem map_active_of_core {α : Type} {f : Plateau → α} (core : ∀ p : Plateau, f p.core = f p) {s t : State}
    (h : t.active.map Plateau.core = s.active.map Plateau.core) : t.active.map f = s.active.map f := by
  have maps := congrArg (Option.map f) h
  simpa only [Option.map_map, Function.comp_def, core] using maps

theorem Plateau.core_aimed (p : Plateau) : p.core.aimed = p.aimed := by simp [Plateau.aimed]

/-- Every core of the records kept is enough for the ACTIVE one. -/
theorem State.sameGrant_of_cores {s t : State}
    (frame : t.rst = s.rst ∧ t.rtb = s.rtb ∧ t.rbt.bands = s.rbt.bands ∧ t.tmo = s.tmo ∧ t.cls = s.cls ∧
      t.lkp.part = s.lkp.part)
    (spm : t.spm = { s.spm with
      plateaus := t.spm.plateaus, arrival := t.spm.arrival, inWindow := t.spm.inWindow, dwellTimer := t.spm.dwellTimer })
    (cores : t.spm.plateaus.map Plateau.core = s.spm.plateaus.map Plateau.core) : s.SameGrant t := by
  obtain ⟨rst, rtb, bands, tmo, cls, part⟩ := frame
  have active := active_of_cores cores
  exact ⟨rst, by rw [State.rpm, rtb, State.rpm], by rw [rtb], bands, fun _ => by rw [cls], by rw [tmo], by rw [tmo], part, spm,
    map_active_of_core Plateau.core_slot active, fun _ => map_active_of_core Plateau.core_aimed active⟩

/-- SPM's own record kept, and of the other blocks all that is read. -/
theorem State.sameGrant_of_frame {s t : State}
    (frame : t.rst = s.rst ∧ t.rtb = s.rtb ∧ t.rbt.bands = s.rbt.bands ∧ t.tmo = s.tmo ∧ t.cls = s.cls ∧
      t.lkp.part = s.lkp.part)
    (spm : t.spm = s.spm) : s.SameGrant t :=
  State.sameGrant_of_cores frame (by rw [spm]) (by rw [spm])

/-! ### An evaluation -/

/-- A grant that is safe, in a record that is the one that the state gives. -/
structure State.Evaluated (s : State) : Prop where
  safe : s.grantSafe = true
  shown : s.recordShown

/-- What an evaluation asks of the ceiling, of the speed that a derivation wants, and of the table. -/
structure State.Grantable (want : Nat) (s : State) : Prop where
  floor : s.sdist ≤ s.spm.ceiling.value
  below : s.spm.plan = .running → want ≤ s.spm.ceiling.value
  clear : s.spm.plan = .running → want ≠ 0 → s.clearOf want
  rebalance : s.spm.plan = .paused .rebalance → s.clearOf s.sdist

/-- The new record put, before what follows of it for arrival, window and dwell. -/
def State.withRecord (want : Nat) (s : State) : State := { s with spm := { s.spm with grant := s.grantRecord want } }

theorem State.withRecord_shown (want : Nat) (s : State) : (s.withRecord want).recordShown := by
  have again : s.grantRecord (s.grantSpeed want) = s.grantRecord want := by
    unfold State.grantRecord
    rw [s.grantSpeed_idem want]
  exact State.recordShown_of _ again.symm (s.grantSpeed_idem want)

theorem State.Grantable.grantSpeed {want : Nat} {s : State} (h : s.Grantable want) :
    s.grantSpeed want ≤ s.spm.ceiling.value ∧
      (s.grantSpeed want ≠ 0 →
        (s.spm.plan = .running ∨ s.spm.plan = .paused .rebalance) ∧ s.clearOf (s.grantSpeed want)) := by
  unfold State.grantSpeed
  split
  · exact ⟨Nat.zero_le _, fun zero => absurd rfl zero⟩
  · split
    · next running => exact ⟨h.below running, fun positive => ⟨Or.inl running, h.clear running positive⟩⟩
    · next paused => exact ⟨h.floor, fun _ => ⟨Or.inr paused, h.rebalance paused⟩⟩
    · exact ⟨Nat.zero_le _, fun zero => absurd rfl zero⟩

theorem State.Grantable.withRecord_safe {want : Nat} {s : State} (h : s.Grantable want) :
    (s.withRecord want).grantSafe = true := by
  obtain ⟨below, positive⟩ := h.grantSpeed
  refine (State.grantSafe_iff _).2 ⟨fun forced => ?_, fun p => (positive p).1, below, h.floor, rfl, fun p => (positive p).2⟩
  exact if_pos forced

/-- After the record is put, an evaluation is nothing to what is read. -/
theorem State.evaluateGrant_sameGrant (want : Nat) (s : State) : (s.withRecord want).SameGrant (s.evaluateGrant want) := by
  have op := s.evaluateGrant_planOp want
  refine State.sameGrant_of_cores (by simp [State.withRecord, op.part]) ?_ op.cores
  unfold State.evaluateGrant State.syncDwell State.arriveAtZero State.speedChanged State.putGrant
  by_cases same : s.grantRecord want = s.spm.grant
  · simp only [same, if_true]
    split <;> simp [State.withRecord, same, State.updateActive]
  · simp only [same, if_false]
    split_ifs <;> simp [State.withRecord, State.updateActive]

theorem State.evaluateGrant_evaluated {want : Nat} {s : State} (h : s.Grantable want) : (s.evaluateGrant want).Evaluated :=
  ⟨(s.evaluateGrant_sameGrant want).grantSafe h.withRecord_safe,
    (s.evaluateGrant_sameGrant want).recordShown (s.withRecord_shown want)⟩

/-! ### A derivation -/

/-- The value of a derivation may be granted (R111, R112). -/
theorem State.derivation_grantable {s : State} (above : s.bandsAbove) {p : Plateau} {v : Nat}
    (value : (s.derivation p).value = some v) : v ≤ s.spm.ceiling.value ∧ s.clearOf v := by
  obtain ⟨moved, slow, search⟩ := s.derives_derivation p above.margin
  generalize s.outOfBands (min p.target s.spm.ceiling.value) = c at *
  have under : c ≤ s.spm.ceiling.value := (isMovedOut_le moved).trans (min_le_right _ _)
  rcases Nat.lt_or_ge s.sdist c with fast | low
  · obtain ⟨⟨le, -⟩, ⟨out, -⟩, -⟩ := (search fast).1 v value
    exact ⟨le.trans under, fun b mem => (b.inside_eq_false_iff v).2 (out b mem)⟩
  · obtain rfl : c = v := Option.some.inj ((slow low).symm.trans value)
    exact ⟨under, fun b mem => (b.inside_eq_false_iff c).2 (moved.2 b mem)⟩

/-- A held derivation wants no more than the derived value, and no speed in a band (R114). -/
theorem State.holdRule_grantable {s : State} (above : s.bandsAbove) {v : Nat} (clear : s.clearOf v) :
    s.holdRule v ≤ v ∧ (s.holdRule v ≠ 0 → s.clearOf (s.holdRule v)) := by
  have held : ∃ g, (g ≠ 0 → s.clearOf g) ∧ (if s.spm.grant.speed = 0 then 0 else s.outOfBands s.spm.grant.speed) = g :=
    ⟨_, fun positive => by
      by_cases zero : s.spm.grant.speed = 0
      · exact absurd (if_pos zero) positive
      · rw [if_neg zero]
        exact State.clearOf_outOfBands above _, rfl⟩
  obtain ⟨g, clearHeld, moved⟩ := held
  unfold State.holdRule
  dsimp only
  rw [moved]
  split_ifs
  · exact ⟨le_rfl, fun _ => clear⟩
  · exact ⟨le_rfl, fun _ => clear⟩
  · exact ⟨by omega, clearHeld⟩

/-- What a derivation asks: an ACTIVE record and bands above Sdist, while the plan is under way. -/
structure State.Ready (s : State) : Prop where
  active : s.spm.plan.underway = true → s.active ≠ none
  above : s.spm.plan.underway = true → s.bandsAbove

theorem State.Ready.clear_sdist {s : State} (h : s.Ready) (paused : s.spm.plan = .paused .rebalance) : s.clearOf s.sdist :=
  (h.above (by rw [paused]; rfl)).clearOf_sdist

/-- An evaluation of a grant that may stand under the ceiling in force. -/
theorem State.refreshGrant_evaluated {s : State} (ready : s.Ready) (floor : s.sdist ≤ s.spm.ceiling.value)
    (below : s.spm.grant.speed ≤ s.spm.ceiling.value) (clear : s.spm.grant.speed ≠ 0 → s.clearOf s.spm.grant.speed) :
    s.refreshGrant.Evaluated :=
  State.evaluateGrant_evaluated ⟨floor, fun _ => below, fun _ => clear, ready.clear_sdist⟩

theorem State.derive_evaluated (k : DerivationKind) {s : State} (ready : s.Ready) (floor : s.sdist ≤ s.spm.ceiling.value) :
    (s.derive k).Evaluated := by
  by_cases running : s.spm.plan = .running
  · have above := ready.above (by rw [running]; rfl)
    unfold State.derive
    split
    · next p _ _ =>
      dsimp only
      split
      · exact State.evaluateGrant_evaluated ⟨floor, nofun, nofun, fun _ => above.clearOf_sdist⟩
      · next v value =>
        obtain ⟨below, clear⟩ := State.derivation_grantable above value
        cases k
        · exact State.evaluateGrant_evaluated ⟨floor, fun _ => below, fun _ _ => clear, fun _ => above.clearOf_sdist⟩
        · have held (w : State) (rbt : w.rbt = s.rbt) (cls : w.cls = s.cls) (ceiling : w.spm.ceiling = s.spm.ceiling) :
              w.Grantable (w.holdRule v) := by
            have aboveW : w.bandsAbove := by
              unfold State.bandsAbove
              rw [rbt, State.sdist_congr cls]
              exact above
            have clearW : w.clearOf v := by
              unfold State.clearOf
              rw [rbt]
              exact clear
            obtain ⟨le, out⟩ := State.holdRule_grantable aboveW clearW
            refine ⟨?_, fun _ => ?_, fun _ => out, fun _ => aboveW.clearOf_sdist⟩
            · rw [ceiling, State.sdist_congr cls]
              exact floor
            · rw [ceiling]
              exact le.trans below
          exact State.evaluateGrant_evaluated (held _ rfl rfl rfl)
    · next other =>
      cases active : s.active with
      | none => exact absurd active (ready.active (by rw [running]; rfl))
      | some p => exact absurd active (other p running)
  · rw [State.derive_idle k running]
    exact State.evaluateGrant_evaluated
      ⟨floor, fun r => absurd r running, fun r => absurd r running, ready.clear_sdist⟩

/-! ### The ceiling and the grant computed anew -/

/-- SPM has computed the ceiling and the grant for the inputs in force (R85, R110). -/
structure State.Anew (s : State) : Prop extends s.Evaluated where
  ceiling : s.ceilingFits s.spm.ceiling

/-- The ceiling in force and its inputs are the same. -/
structure State.SameCeiling (s t : State) : Prop extends s.SameInputs t where
  rst : t.rst = s.rst
  ceiling : t.spm.ceiling = s.spm.ceiling

theorem State.SameCeiling.fits {s t : State} (h : s.SameCeiling t) (fits : s.ceilingFits s.spm.ceiling) :
    t.ceilingFits t.spm.ceiling := by
  rw [h.ceiling]
  exact State.ceilingFits_congr h.toSameInputs fits

theorem State.SameCeiling.current {s t : State} (h : s.SameCeiling t) : s.ceilingCurrent → t.ceilingCurrent :=
  Or.imp (fun reset => by rwa [State.inReset, h.rst]) h.fits

theorem State.SameCeiling.refl (s : State) : s.SameCeiling s := ⟨⟨rfl, rfl, rfl, rfl, fun _ => rfl⟩, rfl, rfl⟩

theorem State.SameCeiling.trans {s t u : State} (h : s.SameCeiling t) (k : t.SameCeiling u) : s.SameCeiling u :=
  ⟨⟨k.update.trans h.update, k.guard.trans h.guard, k.rpm.trans h.rpm, k.bands.trans h.bands,
    fun n => (k.value n).trans (h.value n)⟩, k.rst.trans h.rst, k.ceiling.trans h.ceiling⟩

theorem State.SameGrant.sameCeiling {s t : State} (h : s.SameGrant t) : s.SameCeiling t := ⟨h.inputs, h.rst, h.ceiling⟩

theorem State.sameCeiling_of_frame {s t : State}
    (frame : t.rst = s.rst ∧ t.rtb.measured = s.rtb.measured ∧ t.rbt = s.rbt ∧ t.cls = s.cls)
    (spm : t.spm.update = s.spm.update ∧ t.spm.guard = s.spm.guard ∧ t.spm.ceiling = s.spm.ceiling) : s.SameCeiling t := by
  obtain ⟨rst, measured, rbt, cls⟩ := frame
  obtain ⟨update, guard, ceiling⟩ := spm
  exact ⟨⟨update, guard, by rw [State.rpm, measured, State.rpm], by rw [rbt], fun _ => by rw [cls]⟩, rst, ceiling⟩

/-- A derivation changes no input of the ceiling. -/
theorem State.derive_sameCeiling (k : DerivationKind) (s : State) : s.SameCeiling (s.derive k) :=
  State.sameCeiling_of_frame (by simp) ⟨(s.derive_calm k).update, (s.derive_planOp k).guard, s.derive_ceiling k⟩

theorem State.refreshGrant_sameCeiling (s : State) : s.SameCeiling s.refreshGrant :=
  State.sameCeiling_of_frame (by simp)
    ⟨s.refreshGrant_calm.update, s.refreshGrant_planOp.guard, (s.evaluateGrant_rest s.spm.grant.speed).2.1⟩

theorem State.unforceGrant_sameCeiling (s : State) : s.SameCeiling s.unforceGrant := by
  unfold State.unforceGrant
  split
  · exact s.refreshGrant_sameCeiling
  · exact s.derive_sameCeiling _

theorem State.computeCeiling_fits (s : State) : s.computeCeiling.ceilingFits s.computeCeiling.spm.ceiling :=
  State.ceilingFits_congr (s := s) ⟨rfl, rfl, rfl, rfl, fun _ => rfl⟩ s.ceilingFits_now

theorem State.ceilingAndGrant_anew {s : State} (ready : s.Ready) : s.ceilingAndGrant.Anew :=
  ⟨State.derive_evaluated (s := s.computeCeiling) .held ⟨ready.active, ready.above⟩ s.sdist_le_ceilingNow,
    (s.computeCeiling.derive_sameCeiling .held).fits s.computeCeiling_fits⟩

theorem State.SameGrant.evaluated {s t : State} (h : s.SameGrant t) (k : s.Evaluated) : t.Evaluated :=
  ⟨h.grantSafe k.safe, h.recordShown k.shown⟩

theorem State.SameGrant.anew {s t : State} (h : s.SameGrant t) (k : s.Anew) : t.Anew :=
  ⟨h.evaluated k.toEvaluated, h.sameCeiling.fits k.ceiling⟩

/-! ### A closing span and a report -/

/-- A span closes with nothing for SPM, or with a candidate on which SPM computes ceiling and grant (R61, R70). -/
theorem State.closeSpan_cases (s : State) :
    s.SameGrant s.closeSpan ∨ ∃ w : State, s.closeSpan = w.ceilingAndGrant ∧ w.spm = s.spm := by
  unfold State.closeSpan
  split
  · exact Or.inl (State.sameGrant_of_frame (by simp) rfl)
  · dsimp only
    split
    · exact Or.inl (State.sameGrant_of_frame (by simp) rfl)
    · split
      · exact Or.inl (State.sameGrant_of_frame (by simp [State.post]) rfl)
      · exact Or.inr ⟨_, rfl, rfl⟩
      · exact Or.inr ⟨_, rfl, rfl⟩

/-- After a span has closed the grant reads as before, or SPM has computed ceiling and grant anew. -/
theorem State.closeSpan_grant {s : State} (active : s.spm.plan.underway = true → s.active ≠ none)
    (table : s.spm.plan.underway = true → s.TableSafe) : s.SameGrant s.closeSpan ∨ s.closeSpan.Anew := by
  refine s.closeSpan_cases.imp_right fun ⟨w, closes, spm⟩ => ?_
  rw [closes]
  refine State.ceilingAndGrant_anew ⟨by rw [spm, State.active, spm]; exact active, fun underway => ?_⟩
  have above := (table (by rwa [spm] at underway)).closeSpan.1.bandsAbove
  rw [closes] at above
  simpa [State.bandsAbove, State.sdist] using above

theorem State.refreeze_sameGrant (s : State) : s.SameGrant s.refreeze := State.sameGrant_of_frame (by simp) (by simp)

theorem State.planReport_grant {s : State} (active : s.spm.plan.underway = true → s.active ≠ none)
    (table : s.spm.plan.underway = true → s.TableSafe) : s.SameGrant s.planReport ∨ s.planReport.Anew := by
  unfold State.planReport
  split
  · exact Or.inl s.refreeze_sameGrant
  · exact (State.closeSpan_grant active table).imp s.closeSpan.refreeze_sameGrant.after s.closeSpan.refreeze_sameGrant.anew

end Sys2Proof.Machine
end

section
/-! The grant over the operations of SPM, the part state, trips, the lid, updates and the guard level. -/

namespace Sys2Proof.Machine

/-! ### What keeps the grant -/

/-- The records as a plan under way needs them: in distinct slots, one of them ACTIVE (R92, R93). -/
structure State.PlanLive (s : State) : Prop where
  slots : (s.spm.plateaus.map Plateau.slot).Nodup
  active : s.spm.plan.underway = true → s.active ≠ none

/-- A safe grant, with the plan and the band table that derivations need to leave it so. -/
structure State.Sound (s : State) : Prop extends s.PlanLive where
  table : s.TableSafe
  safe : s.grantSafe = true

/-- A ceiling and a record that are current stay so. -/
structure State.StaysCurrent (s t : State) : Prop where
  ceiling : s.ceilingCurrent → t.ceilingCurrent
  record : s.recordFits → t.recordFits

/-- An operation keeps the grant safe, and the ceiling and the record current. -/
def State.KeepsGrant (s t : State) : Prop := s.Sound → t.Sound ∧ s.StaysCurrent t

/-- An operation makes the ceiling and the record current, with a safe grant. -/
def State.MakesGrant (s t : State) : Prop := s.Sound → t.Sound ∧ t.ceilingCurrent ∧ t.recordFits

theorem State.StaysCurrent.after {s t u : State} (k : t.StaysCurrent u) (h : s.StaysCurrent t) : s.StaysCurrent u :=
  ⟨fun c => k.ceiling (h.ceiling c), fun r => k.record (h.record r)⟩

theorem State.KeepsGrant.refl (s : State) : s.KeepsGrant s := fun sound => ⟨sound, id, id⟩

theorem State.KeepsGrant.after {s t u : State} (k : t.KeepsGrant u) (h : s.KeepsGrant t) : s.KeepsGrant u := by
  intro sound
  obtain ⟨soundT, stays⟩ := h sound
  obtain ⟨soundU, staysU⟩ := k soundT
  exact ⟨soundU, staysU.after stays⟩

theorem State.MakesGrant.keeps {s t : State} (h : s.MakesGrant t) : s.KeepsGrant t := by
  intro sound
  obtain ⟨soundT, ceiling, record⟩ := h sound
  exact ⟨soundT, fun _ => ceiling, fun _ => record⟩

theorem State.KeepsGrant.makes {s t u : State} (k : t.KeepsGrant u) (h : s.MakesGrant t) : s.MakesGrant u := by
  intro sound
  obtain ⟨soundT, ceiling, record⟩ := h sound
  obtain ⟨soundU, stays⟩ := k soundT
  exact ⟨soundU, stays.ceiling ceiling, stays.record record⟩

theorem State.Sound.ready {s : State} (h : s.Sound) : s.Ready := ⟨h.active, fun _ => h.table.bandsAbove⟩

theorem State.SameGrant.stays {s t : State} (h : s.SameGrant t) : s.StaysCurrent t := ⟨h.ceilingCurrent, h.recordFits⟩

theorem State.Anew.current {s : State} (h : s.Anew) : s.ceilingCurrent ∧ s.recordFits := ⟨Or.inr h.ceiling, Or.inr h.shown⟩

/-! ### Records -/

theorem active_ne_none_of_cores {s t : State} (cores : t.spm.plateaus.map Plateau.core = s.spm.plateaus.map Plateau.core)
    (active : s.active ≠ none) : t.active ≠ none := by
  intro none
  have cored := active_of_cores cores
  rw [none] at cored
  exact active (Option.map_eq_none_iff.1 cored.symm)

theorem State.PlanLive.congr {s t : State} (h : s.PlanLive)
    (cores : t.spm.plateaus.map Plateau.core = s.spm.plateaus.map Plateau.core)
    (plan : t.spm.plan.underway = true → s.spm.plan.underway = true) : t.PlanLive := by
  refine ⟨?_, fun underway => active_ne_none_of_cores cores (h.active (plan underway))⟩
  rw [map_eq_of_core Plateau.slot Plateau.core_slot cores]
  exact h.slots

theorem State.PlanOp.underway {s t : State} (h : s.PlanOp t) (underway : t.spm.plan.underway = true) :
    s.spm.plan.underway = true := by
  rcases h.plan with same | ⟨running, -⟩
  · rwa [same] at underway
  · rw [running]; rfl

theorem State.PlanOp.live {s t : State} (h : s.PlanOp t) (live : s.PlanLive) : t.PlanLive := live.congr h.cores h.underway

/-- The records of a consistent plan (R93). -/
theorem State.planLive_of_consistent {s : State} (h : s.planConsistent = true) : s.PlanLive := by
  obtain ⟨slots, -, fits⟩ := State.planConsistent_slots h
  refine ⟨slots, fun underway none => ?_⟩
  have inactive : s.spm.plateaus.countP Plateau.isActive = 0 :=
    List.countP_eq_zero.2 fun p mem => List.find?_eq_none.1 none p mem
  cases plan : s.spm.plan <;> simp [plan, recordsFit, PlanState.underway, inactive] at fits underway

theorem State.sound_of_safe {s : State} (plan : s.planConsistent = true) (bands : s.bandsSafe = true)
    (safe : s.grantSafe = true) : s.Sound :=
  ⟨State.planLive_of_consistent plan, State.tableSafe_of_safe bands, safe⟩

/-! ### Operations that change nothing that is read -/

theorem State.SameGrant.keeps {s t : State} (h : s.SameGrant t) (live : s.PlanLive → t.PlanLive)
    (table : s.TableSafe → t.TableSafe) : s.KeepsGrant t :=
  fun sound => ⟨⟨live sound.toPlanLive, table sound.table, h.grantSafe sound.safe⟩, h.stays⟩

theorem State.keepsGrant_of_cores {s t : State}
    (frame : t.rst = s.rst ∧ t.rtb = s.rtb ∧ t.rbt = s.rbt ∧ t.tmo = s.tmo ∧ t.cls = s.cls ∧ t.lkp.part = s.lkp.part)
    (spm : t.spm = { s.spm with
      plateaus := t.spm.plateaus, arrival := t.spm.arrival, inWindow := t.spm.inWindow, dwellTimer := t.spm.dwellTimer })
    (cores : t.spm.plateaus.map Plateau.core = s.spm.plateaus.map Plateau.core) : s.KeepsGrant t := by
  obtain ⟨rst, rtb, rbt, tmo, cls, part⟩ := frame
  have same : s.SameGrant t := State.sameGrant_of_cores ⟨rst, rtb, by rw [rbt], tmo, cls, part⟩ spm cores
  exact same.keeps (fun live => live.congr cores (by rw [same.plan]; exact id))
    (fun table => table.congr rbt (State.sdist_congr cls))

/-- Time, pins, CSM, IBE and the ring are nothing to the grant. -/
theorem State.keepsGrant_of_frame {s t : State} (frame : t.rst = s.rst ∧ t.rtb = s.rtb ∧ t.rbt = s.rbt ∧ t.spm = s.spm ∧
    t.tmo = s.tmo ∧ t.cls = s.cls ∧ t.lkp.part = s.lkp.part) : s.KeepsGrant t := by
  obtain ⟨rst, rtb, rbt, spm, tmo, cls, part⟩ := frame
  exact State.keepsGrant_of_cores ⟨rst, rtb, rbt, tmo, cls, part⟩ (by rw [spm]) (by rw [spm])

theorem State.post_keepsGrant (n : Notice) (s : State) : s.KeepsGrant (s.post n) :=
  State.keepsGrant_of_frame (by simp [State.post])

/-- TMO's own record may differ in all but the latch and the lid state. -/
theorem State.keepsGrant_of_tmo {s : State} {v : Tmo} (first : v.first = s.tmo.first) (lid : v.lid = s.tmo.lid) :
    s.KeepsGrant { s with tmo := v } :=
  State.SameGrant.keeps ⟨rfl, rfl, rfl, rfl, fun _ => rfl, first, lid, rfl, rfl, rfl, fun _ => rfl⟩
    (fun live => live.congr rfl id)
    (fun table => table.congr rfl rfl)

/-! ### Closing spans and reports -/

/-- An operation of the plan after which the grant reads as before, or is computed anew. -/
theorem State.PlanOp.keepsGrant {s t : State} (op : s.PlanOp t) (table : s.TableSafe → t.TableSafe)
    (grant : s.Sound → s.SameGrant t ∨ t.Anew) : s.KeepsGrant t := by
  intro sound
  have live := op.live sound.toPlanLive
  rcases grant sound with same | anew
  · exact ⟨⟨live, table sound.table, same.grantSafe sound.safe⟩, same.stays⟩
  · exact ⟨⟨live, table sound.table, anew.safe⟩, fun _ => anew.current.1, fun _ => anew.current.2⟩

theorem State.closeSpan_keepsGrant (s : State) : s.KeepsGrant s.closeSpan :=
  s.closeSpan_planOp.keepsGrant (fun table => table.closeSpan.1)
    (fun sound => State.closeSpan_grant sound.active fun _ => sound.table)

theorem State.planReport_keepsGrant (s : State) : s.KeepsGrant s.planReport :=
  s.planReport_planOp.keepsGrant (fun table => State.tableSafe_of_safe table.planReport)
    (fun sound => State.planReport_grant sound.active fun _ => sound.table)

theorem State.KeepsGrant.report {s t : State} (h : s.KeepsGrant t) : s.KeepsGrant t.planReport :=
  t.planReport_keepsGrant.after h

/-! ### Ceilings and derivations -/

/-- The ceiling and the grant are computed anew from whatever state has its table in range, and records as a plan under way needs
them. -/
theorem State.makesGrant_of_anew {s t u : State} (tables : s.TableSafe → t.TableSafe) (live : s.PlanLive → t.PlanLive)
    (op : t.PlanOp u) (frame : u.rbt = t.rbt ∧ u.cls = t.cls) (anew : t.Ready → u.Anew) : s.MakesGrant u := by
  intro sound
  have table := tables sound.table
  have liveT := live sound.toPlanLive
  have computed := anew ⟨liveT.active, fun _ => table.bandsAbove⟩
  exact ⟨⟨op.live liveT, table.congr frame.1 (State.sdist_congr frame.2), computed.safe⟩, computed.current⟩

theorem State.ceilingAndGrant_makesGrant {s t : State} (kept : t.rbt = s.rbt ∧ t.cls = s.cls)
    (live : s.PlanLive → t.PlanLive) : s.MakesGrant t.ceilingAndGrant :=
  State.makesGrant_of_anew (fun table => table.congr kept.1 (State.sdist_congr kept.2)) live t.ceilingAndGrant_planOp (by simp)
    State.ceilingAndGrant_anew

/-- The ceiling, the grant speed and the band table are those of before; plan, records and what forces the grant may differ. -/
structure State.Replans (s t : State) : Prop extends s.SameCeiling t where
  speed : t.spm.grant.speed = s.spm.grant.speed
  rbt : t.rbt = s.rbt
  live : s.PlanLive → t.PlanLive

theorem State.Replans.after {s t u : State} (k : t.Replans u) (h : s.Replans t) : s.Replans u :=
  ⟨h.toSameCeiling.trans k.toSameCeiling, k.speed.trans h.speed, k.rbt.trans h.rbt, fun live => k.live (h.live live)⟩

theorem State.replans_of_frame {s t : State} (frame : t.rst = s.rst ∧ t.rtb.measured = s.rtb.measured ∧ t.rbt = s.rbt ∧
    t.cls = s.cls ∧ t.spm = s.spm) : s.Replans t := by
  obtain ⟨rst, measured, rbt, cls, spm⟩ := frame
  exact ⟨State.sameCeiling_of_frame ⟨rst, measured, rbt, cls⟩ (by simp [spm]), by rw [spm], rbt,
    fun live => live.congr (by rw [spm]) (by rw [spm]; exact id)⟩

theorem State.Replans.sdist {s t : State} (h : s.Replans t) : t.sdist = s.sdist := h.value 14

/-- A new evaluation of the record, after a change of the plan or of what forces the grant. -/
theorem State.Replans.evaluates {s t u : State} (h : s.Replans t) (op : t.PlanOp u) (ceiling : t.SameCeiling u)
    (frame : u.rbt = t.rbt ∧ u.cls = t.cls)
    (evaluated : t.Ready → t.sdist ≤ t.spm.ceiling.value → t.spm.grant.speed ≤ t.spm.ceiling.value →
      (t.spm.grant.speed ≠ 0 → t.clearOf t.spm.grant.speed) → u.Evaluated) : s.KeepsGrant u := by
  intro sound
  obtain ⟨-, -, below, floor, -, clear⟩ := s.grantSafe_iff.1 sound.safe
  have live := h.live sound.toPlanLive
  have table : t.TableSafe := sound.table.congr h.rbt h.sdist
  have done := evaluated ⟨live.active, fun _ => table.bandsAbove⟩ (by rw [h.sdist, h.ceiling]; exact floor)
    (by rw [h.speed, h.ceiling]; exact below) (by rw [h.speed, State.clearOf, h.rbt]; exact clear)
  exact ⟨⟨op.live live, table.congr frame.1 (State.sdist_congr frame.2), done.safe⟩,
    (h.toSameCeiling.trans ceiling).current, fun _ => Or.inr done.shown⟩

theorem State.Replans.refreshGrant {s t : State} (h : s.Replans t) : s.KeepsGrant t.refreshGrant :=
  h.evaluates t.refreshGrant_planOp t.refreshGrant_sameCeiling (by simp) State.refreshGrant_evaluated

theorem State.Replans.derive {s t : State} (h : s.Replans t) (k : DerivationKind) : s.KeepsGrant (t.derive k) :=
  h.evaluates (t.derive_planOp k) (t.derive_sameCeiling k) (by simp)
    (fun ready floor _ _ => State.derive_evaluated k ready floor)

theorem State.Replans.unforceGrant {s t : State} (h : s.Replans t) : s.KeepsGrant t.unforceGrant := by
  unfold State.unforceGrant
  split
  · exact h.refreshGrant
  · exact h.derive _

theorem State.Replans.refl (s : State) : s.Replans s := State.replans_of_frame (by simp)

/-! ### The part state -/

theorem State.partHanded_replans (p : PartState) (s : State) : s.Replans (s.partHanded p) :=
  State.replans_of_frame (by
    unfold State.partHanded
    dsimp only
    split <;> simp)

/-- Timers of the part state are nothing to the grant. -/
theorem State.setPart_keepsGrant {s t : State} (h : s.Replans t) (p : PartState) : s.KeepsGrant (t.setPart p) := by
  have handed := (t.partHanded_replans p).after h
  rw [State.setPart_eq]
  split
  · exact handed.unforceGrant.report
  · exact handed.refreshGrant.report

theorem State.cancelQuiet_keepsGrant (s : State) : s.KeepsGrant s.cancelQuiet :=
  State.setPart_keepsGrant (State.replans_of_frame (by simp)) _

theorem State.wakeSource_keepsGrant (isFrame : Bool) (s : State) : s.KeepsGrant (s.wakeSource isFrame) := by
  have posts (t : State) : t.KeepsGrant (if isFrame then t else t.post .wake) := by
    split
    · exact .refl t
    · exact t.post_keepsGrant _
  unfold State.wakeSource
  dsimp only
  split
  · exact (posts _).after (State.setPart_keepsGrant (State.replans_of_frame (by simp)) _)
  · exact posts s
  · exact .refl s
  · exact .refl s
  · exact .refl s

theorem State.turningReport_keepsGrant (s : State) : s.KeepsGrant s.turningReport := by
  unfold State.turningReport
  split
  · exact s.cancelQuiet_keepsGrant
  · exact s.wakeSource_keepsGrant _

/-! ### Trips and the lid -/

/-- A plan under way may be PAUSED: its ACTIVE record stays ACTIVE (R93). -/
theorem State.pausePlan_replans {s : State} (underway : s.spm.plan.underway = true) (r : PauseReason) :
    s.Replans (s.pausePlan r) where
  toSameCeiling := State.sameCeiling_of_frame (by simp) ⟨rfl, rfl, rfl⟩
  speed := rfl
  rbt := by simp
  live h := h.congr (map_core_mapActive (fun _ active => Plateau.core_withPhase _ active) _) (fun _ => underway)

theorem State.takePause_replans {s : State} (underway : s.spm.plan.underway = true) (r : PauseReason) :
    s.Replans (s.takePause r) := by
  unfold State.takePause
  split
  · exact .refl s
  · exact State.pausePlan_replans underway r

theorem State.tripPlan_replans (s : State) : s.Replans s.tripPlan := by
  unfold State.tripPlan
  split
  · next underway => exact State.takePause_replans underway _
  · exact .refl s

theorem State.lidPlan_replans (s : State) : s.Replans s.lidPlan := by
  unfold State.lidPlan
  split
  · next running => exact State.takePause_replans (by rw [running]; rfl) _
  · next paused => exact State.takePause_replans (by rw [paused]; rfl) _
  · exact .refl s

theorem State.findCause_keepsGrant (c : Cause) (s : State) : s.KeepsGrant (s.findCause c) := by
  unfold State.findCause
  split
  · have latched := State.replans_of_frame (s := s)
      (t := State.post .trip { s with tmo := { s.tmo with first := some c, causes := CauseSet.none.add c } }) (by simp)
    generalize State.post .trip { s with tmo := { s.tmo with first := some c, causes := CauseSet.none.add c } } = t at latched
    have reported := (t.tripPlan_replans.after latched).refreshGrant.report
    unfold State.handTrip
    dsimp only
    split
    · exact (State.cancelQuiet_keepsGrant _).after reported
    · exact reported
  · split
    · exact .refl s
    · exact (State.post_keepsGrant _ _).after (State.keepsGrant_of_tmo rfl rfl)

/-- A cause that a test finds, or no cause. -/
theorem State.findsIf_keepsGrant {s t : State} (h : s.KeepsGrant t) (found : Prop) [Decidable found] (c : Cause) :
    s.KeepsGrant (if found then t.findCause c else t) := by
  split
  · exact (t.findCause_keepsGrant c).after h
  · exact h

theorem State.clearTrip_keepsGrant (s : State) : s.KeepsGrant s.clearTrip :=
  (State.replans_of_frame (by simp)).unforceGrant.report

theorem State.lidSettles_keepsGrant (s : State) : s.KeepsGrant s.lidSettles := by
  unfold State.lidSettles State.lockLid State.unlockLid
  dsimp only
  split
  · exact (State.replans_of_frame (by simp)).unforceGrant.report
  · exact ((State.lidPlan_replans _).after (State.replans_of_frame (by simp))).refreshGrant.report

theorem State.strikeSettles_keepsGrant (s : State) : s.KeepsGrant s.strikeSettles := by
  have settles : s.KeepsGrant { s with tmo := { s.tmo with strike := s.strikePin, strikeTimer := none } } :=
    State.keepsGrant_of_tmo rfl rfl
  unfold State.strikeSettles
  dsimp only
  split
  · exact (State.wakeSource_keepsGrant _ _).after ((State.findCause_keepsGrant _ _).after settles)
  · exact settles

/-! ### Bands, updates and the guard level -/

/-- A new table that is in range for the Sdist in force may be put (R61). -/
theorem State.changeBands_keepsGrant {s : State} {bs : List Band}
    (fits : TableFits s.sdist s.rbt.bands → TableFits s.sdist bs) : s.KeepsGrant (s.changeBands bs) := by
  unfold State.changeBands
  split
  · exact .refl s
  · exact (State.makesGrant_of_anew (t := s.withBands bs) (fun table => ⟨fits table.table, table.span⟩)
      (fun live => live.congr rfl id) (State.ceilingAndGrant_planOp _) (by simp) State.ceilingAndGrant_anew).keeps.report

theorem State.giveUpdate_live {s : State} (h : s.PlanLive) : s.giveUpdate.PlanLive := by
  have spm : s.giveUpdate.spm = { s.spm with update := s.giveUpdate.spm.update } := by simp [State.giveUpdate]
  exact h.congr (by rw [spm]) (by rw [spm]; exact id)

theorem State.handUpdate_keepsGrant (s : State) : s.KeepsGrant s.handUpdate :=
  (State.ceilingAndGrant_makesGrant (by simp) State.giveUpdate_live).keeps.report

theorem State.orderServing_keepsGrant (s : State) : s.KeepsGrant s.orderServing := by
  have marks : s.KeepsGrant { s with ibe := { s.ibe with injectionMark := true, settle := 0 } } :=
    State.keepsGrant_of_frame (by simp)
  unfold State.orderServing
  dsimp only
  split
  · exact (State.handUpdate_keepsGrant _).after marks
  · exact marks

theorem State.changeGuard_keepsGrant (g : GuardLevel) (s : State) : s.KeepsGrant (s.changeGuard g) := by
  unfold State.changeGuard
  split
  · exact .refl s
  · have set : s.PlanLive → State.PlanLive { s with spm := { s.spm with guard := g } } := fun live => live.congr rfl id
    refine (State.ceilingAndGrant_makesGrant ?_ ?_).keeps.report
    · dsimp only
      split <;> simp
    · dsimp only
      split
      · exact set
      · exact fun live => State.giveUpdate_live (set live)

end Sys2Proof.Machine
end

section
/-! The grant over completions, standstills and the index input (R116, R119). -/

namespace Sys2Proof.Machine

/-- The grant is safe at whatever speed of the drum. -/
theorem State.Sound.congr {s t : State} (h : s.Sound) (frame : t.rbt = s.rbt ∧ t.spm = s.spm ∧ t.tmo = s.tmo ∧
    t.cls = s.cls ∧ t.lkp.part = s.lkp.part) : t.Sound := by
  obtain ⟨rbt, spm, tmo, cls, part⟩ := frame
  refine ⟨h.toPlanLive.congr (by rw [spm]) (by rw [spm]; exact id), h.table.congr rbt (State.sdist_congr cls), ?_⟩
  have forced : t.grantForced = s.grantForced := by
    unfold State.grantForced State.tripped
    rw [tmo, spm, part]
  have safe := h.safe
  rw [State.grantSafe_iff] at *
  rw [forced, spm, State.sdist_congr cls, State.clearOf, rbt]
  exact safe

/-! ### The blocks at a completion -/

/-- A span that opens or grows is nothing to the grant; one that closes may give SPM a band (R61, R69, R70). -/
theorem State.learn_keepsGrant {c : Completion} (speed : c.speed ≤ 1200) (s : State) : s.KeepsGrant (s.learn c) := by
  unfold State.learn
  split
  · exact s.closeSpan_keepsGrant
  · next active =>
    split
    · exact .refl s
    · dsimp only
      split
      · simp only [Bool.not_eq_true', Bool.not_eq_false, State.learningActive, Bool.and_eq_true, decide_eq_true_eq] at active
        obtain ⟨⟨-, low⟩, -⟩ := active
        exact State.SameGrant.keeps (State.sameGrant_of_frame (by simp) rfl) (fun live => live.congr rfl id)
          (fun safe => ⟨safe.table, Span.extend_inRange safe.span low speed (by omega) (Nat.min_le_left _ _)⟩)
      · exact s.closeSpan_keepsGrant

theorem State.testArrival_keepsGrant (c : Completion) (s : State) : s.KeepsGrant (s.testArrival c) := by
  have arrives (n : Nat) : s.KeepsGrant { s with spm := { s.spm with arrival := n } } :=
    State.keepsGrant_of_cores (by simp) rfl rfl
  unfold State.testArrival
  dsimp only
  split_ifs
  · exact arrives _
  · exact State.keepsGrant_of_cores (by simp) rfl (map_core_mapActive (fun _ active => Plateau.core_withPhase _ active) _)
  · exact arrives 0
  · exact .refl s

theorem State.testWindow_keepsGrant (s : State) : s.KeepsGrant s.testWindow :=
  State.keepsGrant_of_cores (by simp) rfl rfl

/-- What follows an evaluation of the grant at a completion and at a standstill. -/
theorem State.MakesGrant.closes {s t : State} (h : s.MakesGrant t) : s.MakesGrant t.testWindow.refreshGrant.planReport :=
  (State.planReport_keepsGrant _).makes ((State.Replans.refl _).refreshGrant.makes (t.testWindow_keepsGrant.makes h))

theorem State.takeUpdate_live {s : State} (h : s.PlanLive) : s.takeUpdate.PlanLive := h.congr rfl id

theorem State.planCompletion_makesGrant (c : Completion) (s : State) : s.MakesGrant (s.planCompletion c) :=
  ((State.testArrival_keepsGrant c _).makes
    (State.ceilingAndGrant_makesGrant (t := s.takeUpdate) (by simp) State.takeUpdate_live)).closes

theorem State.testOverspeed_keepsGrant (c : Completion) (s : State) : s.KeepsGrant (s.testOverspeed c) := by
  have counts (n : Nat) : s.KeepsGrant { s with tmo := { s.tmo with overspeed := n } } := State.keepsGrant_of_tmo rfl rfl
  unfold State.testOverspeed
  split
  · exact State.findsIf_keepsGrant (counts _) _ _
  · exact counts 0

theorem State.takeCompletion_keepsGrant {c : Completion} (speed : c.speed ≤ 1200) (s : State) (k : Taker) :
    s.KeepsGrant (s.takeCompletion c k) := by
  cases k with
  | rbt => exact s.learn_keepsGrant speed
  | spm => exact (s.planCompletion_makesGrant c).keeps
  | ric => exact State.keepsGrant_of_frame (by simp [State.takeCompletion, (s.ringCompletion_calm c).part])
  | orbit => exact State.findsIf_keepsGrant (.refl s) _ _
  | sensors => exact State.findsIf_keepsGrant (.refl s) _ _
  | overspeed => exact s.testOverspeed_keepsGrant c

/-! ### The blocks at a standstill -/

/-- After the restart hold a grant of 0 stands, or a derivation is made; either way under a ceiling computed anew (R91, R117). -/
theorem State.computeCeiling_unforceGrant_anew {t : State} (ready : t.Ready) (zero : t.spm.grant.speed = 0) :
    t.computeCeiling.unforceGrant.Anew := by
  have readyNow : t.computeCeiling.Ready := ⟨ready.active, ready.above⟩
  have floor : t.computeCeiling.sdist ≤ t.computeCeiling.spm.ceiling.value := t.sdist_le_ceilingNow
  have still : t.computeCeiling.spm.grant.speed = 0 := zero
  refine ⟨?_, t.computeCeiling.unforceGrant_sameCeiling.fits t.computeCeiling_fits⟩
  unfold State.unforceGrant
  split
  · exact State.refreshGrant_evaluated readyNow floor (by rw [still]; exact Nat.zero_le _)
      (fun positive => absurd still positive)
  · exact State.derive_evaluated .fresh readyNow floor

theorem State.planStandstill_makesGrant (s : State) : s.MakesGrant s.planStandstill := by
  intro sound
  generalize released : State.takeUpdate { s with spm := { s.spm with restartHold := false } } = t
  have live : s.PlanLive → t.PlanLive := by
    rw [← released]
    exact fun h => h.congr rfl id
  have kept : t.rbt = s.rbt ∧ t.cls = s.cls := by rw [← released]; exact ⟨rfl, rfl⟩
  have table (safe : s.TableSafe) : t.TableSafe := safe.congr kept.1 (State.sdist_congr kept.2)
  have computed : s.MakesGrant (if s.spm.restartHold then t.computeCeiling.unforceGrant else t.ceilingAndGrant) := by
    split
    · next held =>
      have zero : t.spm.grant.speed = 0 := by
        rw [← released]
        exact (s.grantSafe_iff.1 sound.safe).1 (by simp [State.grantForced, held])
      exact State.makesGrant_of_anew table live (t.computeCeiling_planOp.trans (State.unforceGrant_planOp _)) (by simp)
        fun ready => State.computeCeiling_unforceGrant_anew ready zero
    · exact State.ceilingAndGrant_makesGrant kept live
  have closed := computed.closes sound
  rwa [← released] at closed

theorem State.takeStandstill_keepsGrant (s : State) (k : Taker) : s.KeepsGrant (s.takeStandstill k) := by
  cases k with
  | rbt => exact s.closeSpan_keepsGrant
  | spm => exact s.planStandstill_makesGrant.keeps
  | ric => exact State.keepsGrant_of_frame (by simp [State.takeStandstill, s.ringStandstill_calm.part])
  | orbit => exact .refl s
  | sensors => exact .refl s
  | overspeed => exact State.keepsGrant_of_tmo rfl rfl

/-! ### Whole events -/

/-- Of blocks that take an event one after another and all keep the grant, one that makes it current does so for the event. -/
theorem foldl_makesGrant {α : Type} {take : State → α → State} {s u : State} (sound : s.Sound → u.Sound)
    (keeps : ∀ (v : State) (k : α), v.KeepsGrant (take v k)) {spm : α} (makes : ∀ v : State, v.MakesGrant (take v spm))
    {ks : List α} (mem : spm ∈ ks) : s.MakesGrant (ks.foldl take u) := by
  have run (ls : List α) (v : State) : v.KeepsGrant (ls.foldl take v) := by
    induction ls generalizing v with
    | nil => exact .refl v
    | cons l ls ih => exact (ih _).after (keeps v l)
  obtain ⟨front, back, rfl⟩ := List.append_of_mem mem
  rw [List.foldl_append, List.foldl_cons]
  intro before
  obtain ⟨reached, -⟩ := run front u (sound before)
  exact (run back _).makes (makes _) reached

/-- IBE's work at a completion may post a notice, and is nothing else to LKP. -/
theorem State.estimate_part (c : Completion) (s : State) : (s.estimate c).lkp.part = s.lkp.part := by
  have counted (t : State) : t.recordULast.countRingQuiet.lkp = t.lkp := by
    unfold State.recordULast
    split <;> rfl
  unfold State.estimate
  split_ifs
  · exact (State.testLatch_calm _).part
  · exact (State.testLatch_calm _).part
  · exact (State.testLatch_calm _).part.trans (congrArg Lkp.part (counted _))
  · exact (State.testLatch_calm _).part

theorem State.issueCompletion_makesGrant {s : State} (speed : s.rpm ≤ 1200) (p : Nat) (order : List Taker) :
    s.MakesGrant (s.issueCompletion p order) := by
  unfold State.issueCompletion
  dsimp only
  exact foldl_makesGrant (fun sound => sound.congr (by simp [State.estimate_part])) (State.takeCompletion_keepsGrant speed)
    (spm := .spm) (State.planCompletion_makesGrant _) (spm_mem_takersInOrder order)

theorem State.closeRevolution_rpm_le (p : Nat) (s : State) : (s.closeRevolution p).rpm ≤ 1200 := by
  have measured := speedOf_le p
  change speedOf p / 10 ≤ 1200
  omega

/-- A revolution closes at a new speed; the completion that it issues makes ceiling and record current again. -/
theorem State.closingEdge_makesGrant (last : Nat) (order : List Taker) (s : State) :
    s.MakesGrant (s.closingEdge last order) := by
  intro sound
  have slow := s.closeRevolution_rpm_le (sub24 s.capture last)
  have closed : (s.closeRevolution (sub24 s.capture last)).Sound := sound.congr (by simp)
  unfold State.closingEdge
  dsimp only
  split
  · have turning := (State.turningReport_keepsGrant _ closed).1
    exact State.issueCompletion_makesGrant (by simpa [State.rpm] using slow) _ _ turning
  · exact State.issueCompletion_makesGrant slow _ _ closed

theorem State.indexEdge_keepsGrant (rising : Bool) (order : List Taker) (s : State) :
    s.KeepsGrant (s.indexEdge rising order) := by
  unfold State.indexEdge
  split
  · split
    · exact (State.replans_of_frame (by simp [State.firstEdge])).refreshGrant
    · exact (s.closingEdge_makesGrant _ order).keeps
  · exact .refl s

theorem State.standstill_keepsGrant (order : List Taker) (s : State) : s.KeepsGrant (s.standstill order) := by
  unfold State.standstill
  exact (foldl_makesGrant (fun sound => sound.congr (by simp [(State.testLatch_calm _).part]))
    State.takeStandstill_keepsGrant (spm := .spm) State.planStandstill_makesGrant (spm_mem_takersInOrder order)).keeps

end Sys2Proof.Machine
end

section
/-! The grant over the operations of a request: the plan's records, its activation, START, CLEAR and a write. -/

namespace Sys2Proof.Machine

/-! ### The outcome of an operation -/

/-- After an operation the grant is safe, and a ceiling and a record that were current are. -/
def State.LeavesGrant (s t : State) : Prop := s.Sound → t.grantSafe = true ∧ s.StaysCurrent t

theorem State.KeepsGrant.leaves {s t : State} (h : s.KeepsGrant t) : s.LeavesGrant t := by
  intro sound
  obtain ⟨soundT, stays⟩ := h sound
  exact ⟨soundT.safe, stays⟩

theorem State.LeavesGrant.after {s t u : State} (k : t.LeavesGrant u) (h : s.KeepsGrant t) : s.LeavesGrant u := by
  intro sound
  obtain ⟨soundT, stays⟩ := h sound
  obtain ⟨safe, staysU⟩ := k soundT
  exact ⟨safe, staysU.after stays⟩

theorem State.LeavesGrant.same {s t u : State} (h : s.LeavesGrant t) (k : t.SameGrant u) : s.LeavesGrant u := by
  intro sound
  obtain ⟨safe, stays⟩ := h sound
  exact ⟨k.grantSafe safe, k.stays.after stays⟩

theorem State.Evaluated.leaves {s t : State} (ceiling : s.ceilingCurrent → t.ceilingCurrent) (h : s.Sound → t.Evaluated) :
    s.LeavesGrant t :=
  fun sound => ⟨(h sound).safe, ceiling, fun _ => Or.inr (h sound).shown⟩

/-- The report that follows an evaluation. -/
theorem State.Evaluated.report {s t : State} (ceiling : s.ceilingCurrent → t.ceilingCurrent) (h : s.Sound → t.Evaluated)
    (active : t.spm.plan.underway = true → t.active ≠ none) (table : t.spm.plan.underway = true → s.Sound → t.TableSafe) :
    s.LeavesGrant t.planReport := by
  intro sound
  rcases State.planReport_grant active (fun underway => table underway sound) with same | anew
  · exact (State.Evaluated.leaves ceiling h).same same sound
  · exact ⟨anew.safe, fun _ => anew.current.1, fun _ => anew.current.2⟩

/-! ### Evaluations of a plan that is not under way -/

theorem State.Sound.floor {s : State} (h : s.Sound) : s.sdist ≤ s.spm.ceiling.value := (s.grantSafe_iff.1 h.safe).2.2.2.1

/-- While no plan is under way the grant is 0 (R119). -/
theorem State.Sound.idle_grant {s : State} (h : s.Sound) (idle : s.spm.plan.underway = false) : s.spm.grant.speed = 0 := by
  by_contra positive
  obtain running | paused := (s.grantSafe_iff.1 h.safe).2.1 positive
  · rw [running] at idle
    exact nomatch idle
  · rw [paused] at idle
    exact nomatch idle

theorem State.refreshGrant_evaluated_of_rest {s : State} (idle : s.spm.plan.underway = false)
    (floor : s.sdist ≤ s.spm.ceiling.value) : s.refreshGrant.Evaluated := by
  have rests {p : PlanState} (underway : p.underway = true) : s.spm.plan ≠ p := fun same => by
    rw [same, underway] at idle
    exact nomatch idle
  exact State.evaluateGrant_evaluated ⟨floor, fun running => absurd running (rests rfl),
    fun running => absurd running (rests rfl), fun paused => absurd paused (rests rfl)⟩

/-- A new evaluation while no plan is under way, and SPM's report of it. -/
theorem State.refreshGrant_rest_report {s t : State} (ceiling : s.ceilingCurrent → t.ceilingCurrent)
    (floor : s.Sound → t.sdist ≤ t.spm.ceiling.value) (idle : t.spm.plan.underway = false) :
    s.LeavesGrant t.refreshGrant.planReport := by
  have rests (underway : t.refreshGrant.spm.plan.underway = true) : False := by
    have before := t.refreshGrant_planOp.underway underway
    rw [idle] at before
    exact nomatch before
  exact State.Evaluated.report (fun current => t.refreshGrant_sameCeiling.current (ceiling current))
    (fun sound => State.refreshGrant_evaluated_of_rest idle (floor sound)) (fun k => (rests k).elim) (fun k => (rests k).elim)

/-- The plan has become one that is not under way. -/
theorem State.SameCeiling.rest_report {s t : State} (same : s.SameCeiling t) (idle : t.spm.plan.underway = false) :
    s.LeavesGrant t.refreshGrant.planReport := by
  refine State.refreshGrant_rest_report same.current (fun sound => ?_) idle
  rw [State.sdist, same.value, same.ceiling]
  exact sound.floor

/-! ### Activation -/

/-- A record of the plan that is made ACTIVE is one that the plan has. -/
theorem exists_active_of_activateSlot {ps : List Plateau} {p : Plateau} (mem : p ∈ ps) (ph : Phase) :
    (activateSlot p.slot ph ps).find? Plateau.isActive ≠ none := by
  intro none
  refine List.find?_eq_none.1 none { p with state := .active ph, elapsed := some 0 } ?_ rfl
  exact List.mem_map.2 ⟨p, mem, if_pos rfl⟩

theorem State.activateNext_sameCeiling (s : State) : s.SameCeiling s.activateNext := by
  unfold State.activateNext State.completePlan
  split
  · refine State.SameCeiling.trans ?_ (State.refreshGrant_sameCeiling _)
    exact State.sameCeiling_of_frame (by simp) ⟨rfl, rfl, rfl⟩
  · refine State.SameCeiling.trans ?_ (State.derive_sameCeiling _ _)
    exact State.sameCeiling_of_frame (by simp) ⟨rfl, rfl, rfl⟩

theorem State.activateNext_active (s : State) :
    s.activateNext.spm.plan.underway = true → s.activateNext.active ≠ none := by
  unfold State.activateNext State.completePlan
  split
  · intro underway
    exact nomatch (State.refreshGrant_planOp _).underway underway
  · next p next =>
    intro _
    refine active_ne_none_of_cores (State.derive_planOp _ _).cores ?_
    exact exists_active_of_activateSlot (List.mem_of_find?_eq_some next) _

theorem State.activateNext_evaluated {s : State} (above : s.bandsAbove) (floor : s.sdist ≤ s.spm.ceiling.value) :
    s.activateNext.Evaluated := by
  unfold State.activateNext State.completePlan
  split
  · exact State.refreshGrant_evaluated_of_rest rfl floor
  · next p next =>
    refine State.derive_evaluated .fresh ⟨fun _ => ?_, fun _ => above⟩ floor
    exact exists_active_of_activateSlot (List.mem_of_find?_eq_some next) _

/-- The next record of the plan is ACTIVE, or the plan is COMPLETE, and SPM reports it (R103). -/
theorem State.activateNext_report {s t : State} (same : s.SameCeiling t) (rbt : t.rbt = s.rbt) :
    s.LeavesGrant t.activateNext.planReport := by
  have sdist : t.sdist = s.sdist := same.value 14
  have table (sound : s.Sound) : t.TableSafe := sound.table.congr rbt sdist
  refine State.Evaluated.report (same.trans t.activateNext_sameCeiling).current (fun sound => ?_) t.activateNext_active
    (fun _ sound => (table sound).congr (by simp) (t.activateNext_sameCeiling.value 14))
  refine State.activateNext_evaluated (table sound).bandsAbove ?_
  rw [sdist, same.ceiling]
  exact sound.floor

theorem State.endActive_report {s t : State} (same : s.SameCeiling t) (rbt : t.rbt = s.rbt) (final : PlateauState) :
    s.LeavesGrant (t.endActive final).planReport :=
  State.activateNext_report (same.trans (State.sameCeiling_of_frame (by simp) ⟨rfl, rfl, rfl⟩)) (by simpa using rbt)

/-! ### Records that change -/

/-- The plan's records put. -/
def State.withPlateaus (ps : List Plateau) (s : State) : State := { s with spm := { s.spm with plateaus := ps } }

theorem find_active_map {g : Plateau → Plateau} {ps : List Plateau} (active : ∀ p ∈ ps, (g p).isActive = p.isActive) :
    (ps.map g).find? Plateau.isActive = (ps.find? Plateau.isActive).map g := by
  rw [List.find?_map]
  exact congrArg (Option.map g) (List.find?_congr active)

/-- Records changed one by one, each in its slot and those ACTIVE that were. -/
theorem State.PlanLive.map {s : State} (h : s.PlanLive) {g : Plateau → Plateau}
    (slot : ∀ p ∈ s.spm.plateaus, (g p).slot = p.slot) (active : ∀ p ∈ s.spm.plateaus, (g p).isActive = p.isActive) :
    (s.withPlateaus (s.spm.plateaus.map g)).PlanLive := by
  refine ⟨?_, fun underway none => h.active underway ?_⟩
  · have slots : (s.spm.plateaus.map g).map Plateau.slot = s.spm.plateaus.map Plateau.slot := by
      rw [List.map_map]
      exact List.map_congr_left slot
    exact slots.symm ▸ h.slots
  · exact Option.map_eq_none_iff.1 ((find_active_map active).symm.trans none)

/-- Records changed such that the ACTIVE one reads as before. -/
theorem State.sameGrant_of_records {s : State} {ps : List Plateau}
    (slot : (ps.find? Plateau.isActive).map Plateau.slot = s.active.map Plateau.slot)
    (aimed : s.spm.plan = .running → (ps.find? Plateau.isActive).map Plateau.aimed = s.active.map Plateau.aimed) :
    s.SameGrant (s.withPlateaus ps) :=
  ⟨rfl, rfl, rfl, rfl, fun _ => rfl, rfl, rfl, rfl, rfl, slot, aimed⟩

theorem State.keepsGrant_map {s : State} {g : Plateau → Plateau}
    (slot : ∀ p ∈ s.spm.plateaus, (g p).slot = p.slot) (active : ∀ p ∈ s.spm.plateaus, (g p).isActive = p.isActive)
    (aimed : s.Sound → s.spm.plan = .running → ∀ p ∈ s.spm.plateaus, p.isActive = true → (g p).aimed = p.aimed) :
    s.KeepsGrant (s.withPlateaus (s.spm.plateaus.map g)) := by
  have reads {α : Type} {f : Plateau → α} (same : ∀ p ∈ s.spm.plateaus, p.isActive = true → f (g p) = f p) :
      ((s.spm.plateaus.map g).find? Plateau.isActive).map f = s.active.map f := by
    rw [find_active_map active, Option.map_map]
    exact Option.map_congr fun p found => same p (List.mem_of_find?_eq_some found) (List.find?_some found)
  intro sound
  exact State.SameGrant.keeps
    (State.sameGrant_of_records (reads fun p mem _ => slot p mem) (fun running => reads (aimed sound running)))
    (fun live => live.map slot active) (fun table => table.congr rfl rfl) sound

/-- Records removed, none of them ACTIVE. -/
theorem State.keepsGrant_filter {s : State} {keep : Plateau → Bool}
    (active : s.Sound → ∀ p ∈ s.spm.plateaus, p.isActive = true → keep p = true) :
    s.KeepsGrant (s.withPlateaus (s.spm.plateaus.filter keep)) := by
  intro sound
  have found : (s.spm.plateaus.filter keep).find? Plateau.isActive = s.active := by
    rw [List.find?_filter]
    refine List.find?_congr fun p mem => ?_
    cases is : p.isActive with
    | true => simp [active sound p mem is]
    | false => simp
  refine State.SameGrant.keeps (State.sameGrant_of_records (by rw [found]) (fun _ => by rw [found])) (fun live => ?_)
    (fun table => table.congr rfl rfl) sound
  exact ⟨live.slots.sublist (List.filter_sublist.map _), fun underway none => live.active underway (found.symm.trans none)⟩

/-- A record that is not ACTIVE is in another slot than the ACTIVE one. -/
theorem State.PlanLive.slot_ne {s : State} (h : s.PlanLive) {p q : Plateau} (memp : p ∈ s.spm.plateaus)
    (rests : p.isActive = false) (memq : q ∈ s.spm.plateaus) (active : q.isActive = true) : q.slot ≠ p.slot := by
  intro same
  rw [List.inj_on_of_nodup_map h.slots memq memp same, rests] at active
  exact nomatch active

theorem Plateau.isActive_congr {p q : Plateau} (state : q.state = p.state) : q.isActive = p.isActive := by
  unfold Plateau.isActive
  rw [state]

/-- The record in a slot changed, one that is not ACTIVE. -/
theorem State.updateSlot_keepsGrant {s : State} {p : Plateau} (mem : p ∈ s.spm.plateaus) (rests : p.isActive = false)
    {f : Plateau → Plateau} (slot : ∀ q, (f q).slot = q.slot) (state : ∀ q, (f q).state = q.state) :
    s.KeepsGrant (s.withPlateaus (updateSlot p.slot f s.spm.plateaus)) := by
  refine State.keepsGrant_map (fun q _ => ?_) (fun q _ => ?_) (fun sound _ q memq active => ?_)
  · split
    · exact slot q
    · rfl
  · split
    · exact Plateau.isActive_congr (state q)
    · rfl
  · rw [if_neg (sound.toPlanLive.slot_ne mem rests memq active)]

theorem State.removeSlot_keepsGrant {s : State} {p : Plateau} (mem : p ∈ s.spm.plateaus) (rests : p.isActive = false) :
    s.KeepsGrant (s.withPlateaus (removeSlot p.slot s.spm.plateaus)) :=
  State.keepsGrant_filter fun sound _ memq active => decide_eq_true (sound.toPlanLive.slot_ne mem rests memq active)

/-- The ACTIVE record changed in its slot. -/
theorem State.PlanLive.updateActive {s : State} (h : s.PlanLive) {f : Plateau → Plateau} (slot : ∀ p, (f p).slot = p.slot)
    (state : ∀ p, (f p).state = p.state) : (s.updateActive f).PlanLive := by
  refine h.map (fun p _ => ?_) (fun p _ => ?_)
  · split
    · exact slot p
    · rfl
  · split
    · exact Plateau.isActive_congr (state p)
    · rfl

theorem State.updateActive_sameCeiling (f : Plateau → Plateau) (s : State) : s.SameCeiling (s.updateActive f) :=
  State.sameCeiling_of_frame (by simp) ⟨rfl, rfl, rfl⟩

theorem State.updateActive_keepsGrant {s : State} {f : Plateau → Plateau} (slot : ∀ p, (f p).slot = p.slot)
    (state : ∀ p, (f p).state = p.state) (aimed : s.spm.plan = .running → ∀ p, (f p).aimed = p.aimed) :
    s.KeepsGrant (s.updateActive f) := by
  refine State.keepsGrant_map (fun p _ => ?_) (fun p _ => ?_) (fun _ running p _ active => ?_)
  · split
    · exact slot p
    · rfl
  · split
    · exact Plateau.isActive_congr (state p)
    · rfl
  · rw [if_pos active]
    exact aimed running p

/-! ### AMEND, START, CLEAR and the dwell tick -/

theorem State.rampAgain_keepsGrant (p : Plateau) (s : State) : s.KeepsGrant (s.rampAgain p) := by
  unfold State.rampAgain
  dsimp only
  split
  · exact State.keepsGrant_of_cores (by simp) rfl (map_core_mapActive (fun _ active => Plateau.core_withPhase _ active) _)
  · exact .refl s

theorem State.rampAgain_plan (p : Plateau) (s : State) : (s.rampAgain p).spm.plan = s.spm.plan := by
  unfold State.rampAgain
  dsimp only
  split <;> rfl

theorem State.rampAgain_replans (p : Plateau) (s : State) : s.Replans (s.rampAgain p) := by
  unfold State.rampAgain
  dsimp only
  split
  · exact ⟨State.sameCeiling_of_frame (by simp) ⟨rfl, rfl, rfl⟩, rfl, by simp,
      fun live => live.congr (map_core_mapActive (fun _ active => Plateau.core_withPhase _ active) _) id⟩
  · exact .refl s

/-- An AMEND of the ACTIVE record ends its plateau, or derives anew where the plan is RUNNING (R98). -/
theorem State.amendTaken_report (p : Plateau) (v : PlateauParams) (s : State) :
    s.LeavesGrant (s.amendTaken p v).planReport := by
  unfold State.amendTaken
  dsimp only
  split
  · exact State.endActive_report (s.updateActive_sameCeiling (Plateau.give s.smax v)) rfl _
  · split
    · have given : s.Replans (s.updateActive (Plateau.give s.smax v)) :=
        ⟨s.updateActive_sameCeiling _, rfl, rfl, fun live => live.updateActive (fun _ => rfl) (fun _ => rfl)⟩
      exact (((State.rampAgain_replans p _).after given).derive .fresh).report.leaves
    · next rests =>
      have running : s.spm.plan ≠ .running := by rwa [State.rampAgain_plan] at rests
      have given : s.KeepsGrant (s.updateActive (Plateau.give s.smax v)) :=
        State.updateActive_keepsGrant (fun _ => rfl) (fun _ => rfl) (fun r => absurd r running)
      exact ((State.rampAgain_keepsGrant p _).after given).report.leaves

theorem State.resumePlan_keepsGrant {s : State} (paused : s.spm.plan.isPaused = true) : s.KeepsGrant s.resumePlan := by
  have underway : s.spm.plan.underway = true := by
    cases plan : s.spm.plan <;> simp [plan, PlanState.isPaused] at paused
    rfl
  have resumed : s.Replans ((State.post .planState { s with spm := { s.spm with plan := .running } }).updateActive
      (Plateau.withPhase .ramping)) :=
    ⟨State.sameCeiling_of_frame (by simp) ⟨rfl, rfl, rfl⟩, rfl, rfl,
      fun live => live.congr (map_core_mapActive (fun _ active => Plateau.core_withPhase _ active) _) (fun _ => underway)⟩
  exact (resumed.derive .fresh).report

theorem State.abortPlan_leavesGrant (s : State) : s.LeavesGrant s.abortPlan :=
  State.SameCeiling.rest_report (State.sameCeiling_of_frame (by simp) ⟨rfl, rfl, rfl⟩) rfl

/-- A START computes ceiling and grant before its first record is ACTIVE, and derives when it is (R102, R103). -/
theorem State.startPlan_leavesGrant (s : State) : s.LeavesGrant s.startPlan := by
  rw [State.startPlan_eq]
  intro sound
  have frame : s.startTaken.rbt = s.rbt ∧ s.startTaken.cls = s.cls := by simp [State.startTaken]
  have table : s.startTaken.TableSafe := sound.table.congr frame.1 (State.sdist_congr frame.2)
  have fits : s.startTaken.ceilingFits s.startTaken.spm.ceiling :=
    (State.derive_sameCeiling _ _).fits (State.computeCeiling_fits _)
  have floor : s.startTaken.sdist ≤ s.startTaken.spm.ceiling.value := by
    rw [State.startTaken, State.ceilingAndGrant, (State.derive_sameCeiling _ _).ceiling, State.sdist,
      (State.derive_sameCeiling _ _).value]
    exact State.sdist_le_ceilingNow _
  have activated := State.activateNext_evaluated table.bandsAbove floor
  have current := s.startTaken.activateNext_sameCeiling.fits fits
  exact State.Evaluated.report (s := s) (fun _ => Or.inr current) (fun _ => activated) (State.activateNext_active _)
    (fun _ _ => table.congr (by simp) (s.startTaken.activateNext_sameCeiling.value 14)) sound

/-- CLEAR empties a plan that is not under way, and frees bands (R74, R107). -/
theorem State.clearPlan_leavesGrant {s : State} (idle : s.spm.plan.underway = false) : s.LeavesGrant s.clearPlan := by
  obtain ⟨rbt, -, -, -, rtb, -, tmo, cls, -, -, rst, -⟩ := s.emptied_frame
  have spm := s.emptied_spm
  rw [State.clearPlan_eq]
  generalize s.emptied = u at *
  intro sound
  have zero := sound.idle_grant idle
  have same : s.SameCeiling u :=
    State.sameCeiling_of_frame ⟨rst, by rw [rtb], rbt, cls⟩ (by rw [spm]; exact ⟨rfl, rfl, rfl⟩)
  have sdist : u.sdist = s.sdist := State.sdist_congr cls
  obtain ⟨-, -, below, floor, shows, -⟩ := s.grantSafe_iff.1 sound.safe
  have emptied : u.Sound := by
    refine ⟨⟨by simp [spm], by simp [spm, PlanState.underway]⟩, sound.table.congr rbt sdist, ?_⟩
    rw [State.grantSafe_iff, spm, sdist]
    exact ⟨fun _ => zero, fun positive => absurd zero positive, below, floor, shows, fun positive => absurd zero positive⟩
  obtain ⟨changed, stays⟩ := State.changeBands_keepsGrant (bs := clearLearned s.rbt.bands)
    (fun table => rbt ▸ table.sublist List.filter_sublist) emptied
  have rests : (u.changeBands (clearLearned s.rbt.bands)).spm.plan = .empty := by
    rw [(u.changeBands_planOp _).idle_plan (by simp [spm]), spm]
  generalize u.changeBands (clearLearned s.rbt.bands) = v at *
  exact State.refreshGrant_rest_report (fun current => stays.ceiling (same.current current)) (fun _ => changed.floor)
    (by rw [rests]; rfl) sound

theorem State.dwellTick_leavesGrant (s : State) : s.LeavesGrant s.dwellTick := by
  unfold State.dwellTick
  dsimp only
  split
  · exact State.endActive_report (s.updateActive_sameCeiling Plateau.tick) rfl _
  · have ticks : s.KeepsGrant (s.updateActive Plateau.tick) :=
      State.updateActive_keepsGrant (fun _ => rfl) (fun _ => rfl) (fun _ _ => rfl)
    have restarts (u : State) (timer : Option Nat) : u.KeepsGrant { u with spm := { u.spm with dwellTimer := timer } } :=
      State.keepsGrant_of_cores (by simp) rfl rfl
    exact ((restarts _ _).after ticks).leaves

/-! ### A write -/

theorem State.ifChanged_plan {f : State → State} (keeps : ∀ u : State, (f u).spm.plan = u.spm.plan) (changed : Nat → Bool)
    (ns : List Nat) (s : State) : (s.ifChanged changed ns f).spm.plan = s.spm.plan := by
  unfold State.ifChanged
  split
  · exact keeps s
  · rfl

theorem State.estimatorWrite_plan (changed : Nat → Bool) (s : State) :
    (s.estimatorWrite changed).spm.plan = s.spm.plan := by
  have restarts := State.ifChanged_plan (f := State.restartSmoothing) (fun _ => rfl) changed
  unfold State.estimatorWrite
  dsimp only
  split
  · rw [State.giveUpdate]
    simp [restarts]
  · exact restarts _ _

/-- SPM computes ceiling and grant on the table as the write leaves it, in the plan state of before (R181). -/
theorem State.consumeWrite_plan (changed : Nat → Bool) (s : State) :
    ∃ t : State, s.consumeWrite changed = t.ceilingAndGrant.planReport ∧ t.spm.plan = s.spm.plan := by
  have capacity (u : State) : u.capacityWrite.spm.plan = u.spm.plan := by
    unfold State.capacityWrite State.removeOrders State.lowerContents
    dsimp only
    split <;> simp
  refine ⟨_, rfl, ?_⟩
  rw [State.ifChanged_plan (f := State.reaim) (fun _ => rfl),
    State.ifChanged_plan (f := State.refreeze) (fun _ => by simp),
    State.ifChanged_plan (f := State.bleedTimers) (fun _ => by simp),
    State.ifChanged_plan capacity,
    State.ifChanged_plan (f := State.reloadBands) (fun _ => by simp),
    State.ifChanged_plan (f := State.raiseBands) (fun _ => rfl),
    State.estimatorWrite_plan,
    State.ifChanged_plan (f := State.recomputeMass) (fun _ => by simp),
    State.ifChanged_plan (f := State.recomputeSag) (fun _ => by simp),
    State.ifChanged_plan (fun _ => by simp)]

/-- A write is taken while no plan is under way (R180), and SPM computes the ceiling anew. -/
theorem State.takeWrite_leavesGrant {s : State} (idle : s.spm.plan.underway = false) (n : Nat) (ws : List Word) :
    s.LeavesGrant (s.takeWrite n ws) := by
  obtain ⟨t, taken, plan⟩ := State.consumeWrite_plan (s.cls.differs (s.cls.take n ws)) { s with cls := s.cls.take n ws }
  rw [State.takeWrite, taken]
  have rests (underway : t.spm.plan.underway = true) : False := by
    rw [plan, idle] at underway
    exact nomatch underway
  have anew : t.ceilingAndGrant.Anew := State.ceilingAndGrant_anew ⟨fun k => (rests k).elim, fun k => (rests k).elim⟩
  have after (underway : t.ceilingAndGrant.spm.plan.underway = true) : False :=
    rests (t.ceilingAndGrant_planOp.underway underway)
  exact State.Evaluated.report (fun _ => anew.current.1) (fun _ => anew.toEvaluated) (fun k => (after k).elim)
    (fun k => (after k).elim)

end Sys2Proof.Machine
end

section
/-! The grant over the resets, the store and the requests, one lemma per owner. -/

namespace Sys2Proof.Machine

/-! ### Resets -/

/-- A grant of 0 is safe under a ceiling that is not below Sdist. -/
theorem State.grantSafe_of_zero {s : State} (zero : s.spm.grant.speed = 0) (floor : s.sdist ≤ s.spm.ceiling.value)
    (shows : s.spm.grant.ceiling = s.spm.ceiling) : s.grantSafe = true :=
  s.grantSafe_iff.2 ⟨fun _ => zero, fun positive => absurd zero positive, by rw [zero]; exact Nat.zero_le _, floor, shows,
    fun positive => absurd zero positive⟩

theorem Cls.beginReset_value (powerOn : Bool) (reached : Nat) (c : Cls) (n : Nat) :
    (c.beginReset powerOn reached).value n = c.value n := by
  change (c.cutProgramming reached).value n = c.value n
  unfold Cls.cutProgramming
  split
  · rfl
  · next p _ =>
    exact Cls.update_value (f := fun i => { i with stored := cutWords reached p.words, checkOk := p.words.length < reached })
      (fun _ => ⟨rfl, rfl, rfl⟩) (fun n => n = p.item) c n

/-- In a reset the ceiling stays, the grant is 0 and the part STARTING (R123). -/
theorem State.beginReset_leavesGrant {rst : ResetControl} (holds : rst.timer.isSome = true ∨ rst.resetN = true)
    (powerOn : Bool) (reached : Nat) (s : State) : s.LeavesGrant (s.beginReset powerOn reached rst) := by
  intro sound
  refine ⟨State.grantSafe_of_zero rfl ?_ rfl, fun _ => Or.inl (Bool.or_eq_true_iff.2 holds), fun _ => Or.inl rfl⟩
  exact (Cls.beginReset_value powerOn reached s.cls 14).trans_le sound.floor

/-- The first ceiling and grant are those of Table 6-12 (R91, R123). -/
theorem State.endReset_leavesGrant (s t : State) : s.LeavesGrant t.endReset := by
  obtain ⟨-, -, -, -, ceiling, grant⟩ := t.endReset_plan
  have part : t.endReset.lkp.part = .starting := by rw [t.endReset_lkp]; rfl
  refine fun _ => ⟨State.grantSafe_of_zero (by rw [grant]) ?_ (by rw [grant]), fun _ => Or.inr ?_, fun _ => Or.inl part⟩
  · rw [ceiling]
    exact State.sdist_le_ceilingNow _
  · rw [ceiling]
    exact State.ceilingFits_now _

/-- A reset goes on in another way. -/
theorem State.staysInReset_leavesGrant {s : State} {rst : ResetControl} (holds : rst.timer.isSome = true ∨ rst.resetN = true)
    (n : Nat) : s.LeavesGrant { s with time := n, rst := rst } :=
  fun sound => ⟨sound.safe, fun _ => Or.inl (Bool.or_eq_true_iff.2 holds), id⟩

/-! ### The store -/

/-- The store may differ in all but the values in force. -/
theorem State.keepsGrant_of_value {s : State} {c : Cls} (value : ∀ n, c.value n = s.cls.value n) :
    s.KeepsGrant { s with cls := c } :=
  State.SameGrant.keeps ⟨rfl, rfl, rfl, rfl, value, rfl, rfl, rfl, rfl, rfl, fun _ => rfl⟩ (fun live => live.congr rfl id)
    (fun table => table.congr rfl (value 14))

theorem State.programmingDone_keepsGrant (s : State) : s.KeepsGrant s.programmingDone := by
  unfold State.programmingDone
  split
  · exact .refl s
  · next p _ =>
    have stored : s.KeepsGrant { s with cls := s.cls.programmed p } := State.keepsGrant_of_value fun n =>
      Cls.update_value (f := fun i => { i with stored := p.words, checkOk := true }) (fun _ => ⟨rfl, rfl, rfl⟩)
        (fun n => n = p.item) s.cls n
    have answers (u : State) (port : PortState) : u.KeepsGrant { u with lkp := { u.lkp with cycle := port } } :=
      State.keepsGrant_of_frame (by simp)
    exact (answers _ _).after stored

theorem State.lockService_keepsGrant (s : State) : s.KeepsGrant s.lockService := by
  have locks : s.KeepsGrant { s with cls := { s.cls with unlocked := false } } := State.keepsGrant_of_value fun _ => rfl
  unfold State.lockService
  dsimp only
  split
  · exact (State.changeGuard_keepsGrant _ _).after locks
  · exact locks

/-! ### Owners -/

/-- An owner leaves the grant safe, and a ceiling and a record that were current so, at whatever frame and state. -/
def Owner.leavesGrant (own : Owner) : Prop := ∀ (f : Frame) (s : State), s.LeavesGrant (own f s).state

theorem State.leavesGrant_refl (s : State) : s.LeavesGrant s := (State.KeepsGrant.refl s).leaves

/-- A record of the link and the latch of the estimate are nothing to the grant. -/
theorem State.leavesGrant_of_frame {s t : State} (frame : t.rst = s.rst ∧ t.rtb = s.rtb ∧ t.rbt = s.rbt ∧ t.spm = s.spm ∧
    t.tmo = s.tmo ∧ t.cls = s.cls ∧ t.lkp.part = s.lkp.part) : s.LeavesGrant t := (State.keepsGrant_of_frame frame).leaves

theorem State.withSlot_leavesGrant {s : State} {g : Plateau → Reply}
    (leaves : ∀ p ∈ s.spm.plateaus, s.LeavesGrant (g p).state) (slot : Nat) : s.LeavesGrant (s.withSlot slot g).state := by
  unfold State.withSlot
  split
  · exact s.leavesGrant_refl
  · split
    · exact s.leavesGrant_refl
    · next found => exact leaves _ (List.mem_of_find?_eq_some found)

theorem State.withBand_leavesGrant {s : State} {g : Band → Reply} (leaves : ∀ b ∈ s.rbt.bands, s.LeavesGrant (g b).state)
    (id : Nat) : s.LeavesGrant (s.withBand id g).state := by
  unfold State.withBand
  split
  · exact s.leavesGrant_refl
  · split
    · exact s.leavesGrant_refl
    · next b found => exact leaves b (bandAt_some found).1

/-! ### Lookups -/

theorem State.delayedLookup_leavesGrant (k : DelayedKey) (p : Port) (s : State) :
    s.LeavesGrant (s.delayedLookup k p).state := by
  unfold State.delayedLookup
  split
  · exact s.leavesGrant_refl
  · split
    · exact State.leavesGrant_of_frame (by simp)
    · exact s.leavesGrant_refl
    · exact s.leavesGrant_refl

theorem ownNothing_leavesGrant : Owner.leavesGrant ownNothing := fun _ s => s.leavesGrant_refl

theorem ownLookupPlan_leavesGrant : Owner.leavesGrant ownLookupPlan := fun _ s => s.leavesGrant_refl

theorem ownLookupPlateau_leavesGrant : Owner.leavesGrant ownLookupPlateau := by
  intro f s
  refine State.withSlot_leavesGrant (fun p _ => ?_) _
  exact s.leavesGrant_refl

theorem ownLookupGrant_leavesGrant : Owner.leavesGrant ownLookupGrant := by
  intro f s
  change s.LeavesGrant (if f.port = .drive then { s with lkp := { s.lkp with driveAtn := false } } else s)
  split
  · exact State.leavesGrant_of_frame (by simp)
  · exact s.leavesGrant_refl

theorem ownLookupEstimate_leavesGrant : Owner.leavesGrant ownLookupEstimate := by
  intro f s
  unfold ownLookupEstimate
  split <;> exact s.leavesGrant_refl

theorem ownLookupEstimateDelayed_leavesGrant : Owner.leavesGrant ownLookupEstimateDelayed := by
  intro f s
  unfold ownLookupEstimateDelayed
  dsimp only
  split
  · split
    · exact State.leavesGrant_of_frame (by simp)
    · exact s.leavesGrant_refl
    · exact s.leavesGrant_refl
  · exact s.delayedLookup_leavesGrant _ _

theorem ownLookupLoad_leavesGrant : Owner.leavesGrant ownLookupLoad := fun _ s => s.leavesGrant_refl

theorem ownLookupBand_leavesGrant : Owner.leavesGrant ownLookupBand := by
  intro f s
  refine State.withBand_leavesGrant (fun b _ => ?_) _
  exact s.leavesGrant_refl

theorem ownLookupChamber_leavesGrant : Owner.leavesGrant ownLookupChamber := by
  intro f s
  unfold ownLookupChamber
  split <;> exact s.leavesGrant_refl

theorem ownLookupQueue_leavesGrant : Owner.leavesGrant ownLookupQueue := by
  intro f s
  unfold ownLookupQueue
  split
  · exact s.leavesGrant_refl
  · split
    · exact s.leavesGrant_refl
    · split <;> exact s.leavesGrant_refl

theorem ownLookupStatus_leavesGrant : Owner.leavesGrant ownLookupStatus := by
  intro f s
  unfold ownLookupStatus
  dsimp only
  split
  · exact State.leavesGrant_of_frame (by simp)
  · exact s.leavesGrant_refl

theorem ownLookupCal_leavesGrant : Owner.leavesGrant ownLookupCal := by
  intro f s
  unfold ownLookupCal
  split
  · exact s.leavesGrant_refl
  · split <;> exact s.leavesGrant_refl

/-! ### The plan's requests -/

theorem State.planBecomes_sameCeiling (p : PlanState) (s : State) : s.SameCeiling (s.planBecomes p) := by
  unfold State.planBecomes
  split
  · exact State.sameCeiling_of_frame (by simp) ⟨rfl, rfl, rfl⟩
  · exact State.sameCeiling_of_frame (by simp) ⟨rfl, rfl, rfl⟩

theorem State.planBecomes_plan (p : PlanState) (s : State) : (s.planBecomes p).spm.plan = p := by
  unfold State.planBecomes
  split
  · next same => exact same
  · rfl

/-- A plan that becomes EMPTY or LOADED, after records have come or gone. -/
theorem State.planBecomes_report {s t : State} (same : s.SameCeiling t) {p : PlanState} (idle : p.underway = false) :
    s.LeavesGrant (t.planBecomes p).refreshGrant.planReport :=
  (same.trans (t.planBecomes_sameCeiling p)).rest_report (by rw [State.planBecomes_plan]; exact idle)

theorem State.withPlateaus_sameCeiling (ps : List Plateau) (s : State) : s.SameCeiling (s.withPlateaus ps) :=
  State.sameCeiling_of_frame ⟨rfl, rfl, rfl, rfl⟩ ⟨rfl, rfl, rfl⟩

/-- A record appended is QUEUED, and leaves the ACTIVE one (R96). -/
theorem State.append_sameGrant {p : Plateau} (rests : p.isActive = false) (s : State) :
    s.SameGrant (s.withPlateaus (s.spm.plateaus ++ [p])) := by
  have found : (s.spm.plateaus ++ [p]).find? Plateau.isActive = s.active := by
    rw [List.find?_append]
    simp [State.active, rests]
  exact State.sameGrant_of_records (by rw [found]) (fun _ => by rw [found])

theorem ownAppend_leavesGrant : Owner.leavesGrant ownAppend := by
  intro f s
  unfold ownAppend
  dsimp only
  split_ifs
  · exact s.leavesGrant_refl
  · exact s.leavesGrant_refl
  · exact s.leavesGrant_refl
  · generalize hp : Plateau.fresh (freePlateauSlot s.spm.plateaus) s.smax (plateauParams f.params) = p
    have rests : p.isActive = false := by rw [← hp]; rfl
    change s.LeavesGrant (s.withPlateaus (s.spm.plateaus ++ [p])).planAppended
    unfold State.planAppended
    split
    · exact State.planBecomes_report (s.withPlateaus_sameCeiling _) rfl
    · exact s.leavesGrant_refl.same (State.append_sameGrant rests s)

theorem Plateau.isActive_of_queued {p : Plateau} (state : p.state = .queued) : p.isActive = false :=
  Plateau.queued_notActive (decide_eq_true state)

theorem ownAmendPlateau_leavesGrant : Owner.leavesGrant ownAmendPlateau := by
  intro f s
  refine State.withSlot_leavesGrant (fun p mem => ?_) _
  split
  · next state =>
    unfold State.amendQueued
    split
    · exact s.leavesGrant_refl
    · refine (State.updateSlot_keepsGrant mem (Plateau.isActive_of_queued state) (f := fun q =>
        { q.give s.smax (plateauParams f.params) with autoBalance := (plateauParams f.params).autoBalance = 1 }) ?_ ?_).leaves
      · exact fun _ => rfl
      · exact fun _ => rfl
  · unfold State.amendActive
    generalize (if p.autoBalance then 1 else 0) = asked
    split_ifs
    · exact s.leavesGrant_refl
    · exact s.leavesGrant_refl
    · exact s.amendTaken_report p _
  · exact s.leavesGrant_refl
  · exact s.leavesGrant_refl

theorem ownWithdraw_leavesGrant : Owner.leavesGrant ownWithdraw := by
  intro f s
  refine State.withSlot_leavesGrant (fun p mem => ?_) _
  split
  · next state =>
    have removed := State.removeSlot_keepsGrant mem (Plateau.isActive_of_queued state)
    change s.LeavesGrant (s.withdrawQueued p.slot)
    unfold State.withdrawQueued
    dsimp only
    split
    · exact State.planBecomes_report (s.withPlateaus_sameCeiling _) rfl
    · exact removed.leaves
  · exact State.endActive_report (.refl s) rfl _
  · exact s.leavesGrant_refl
  · exact s.leavesGrant_refl

theorem ownRetirePlateau_leavesGrant : Owner.leavesGrant ownRetirePlateau := by
  intro f s
  refine State.withSlot_leavesGrant (fun p mem => ?_) _
  split
  · next isOver =>
    have rests : p.isActive = false := by
      simp only [Plateau.isOver, Bool.and_eq_true, Bool.not_eq_true'] at isOver
      exact isOver.2
    exact (State.removeSlot_keepsGrant mem rests).leaves
  · exact s.leavesGrant_refl

theorem ownStart_leavesGrant : Owner.leavesGrant ownStart := by
  intro f s
  unfold ownStart
  split_ifs
  · exact s.leavesGrant_refl
  · exact s.leavesGrant_refl
  · exact s.leavesGrant_refl
  · exact s.leavesGrant_refl
  · exact s.startPlan_leavesGrant

theorem ownPause_leavesGrant : Owner.leavesGrant ownPause := by
  intro f s
  unfold ownPause
  split
  · next running => exact (State.pausePlan_replans (by rw [running]; rfl) _).refreshGrant.report.leaves
  · exact s.leavesGrant_refl

theorem ownResume_leavesGrant : Owner.leavesGrant ownResume := by
  intro f s
  unfold ownResume
  split
  · next fits =>
    simp only [Bool.and_eq_true] at fits
    exact (State.resumePlan_keepsGrant fits.1.1).leaves
  · exact s.leavesGrant_refl

theorem ownNext_leavesGrant : Owner.leavesGrant ownNext := by
  intro f s
  refine State.withSlot_leavesGrant (fun p _ => ?_) _
  split
  · exact State.endActive_report (.refl s) rfl _
  · exact s.leavesGrant_refl

theorem ownAbort_leavesGrant : Owner.leavesGrant ownAbort := by
  intro f s
  unfold ownAbort
  split
  · exact s.abortPlan_leavesGrant
  · exact s.leavesGrant_refl

theorem ownClear_leavesGrant : Owner.leavesGrant ownClear := by
  intro f s
  unfold ownClear
  split
  · exact s.leavesGrant_refl
  · next idle => exact State.clearPlan_leavesGrant (Bool.eq_false_iff.2 idle)

theorem ownGuard_leavesGrant : Owner.leavesGrant ownGuard := by
  intro f s
  unfold ownGuard
  split
  · exact s.leavesGrant_refl
  · split
    · exact s.leavesGrant_refl
    · exact (s.changeGuard_keepsGrant _).leaves

/-! ### The requests of bands, load and ring -/

/-- A declaration that passes its tests is a band in range (R66). -/
theorem ownDeclare_leavesGrant : Owner.leavesGrant ownDeclare := by
  intro f s
  unfold ownDeclare
  split
  · next fits =>
    have placed (h : TableFits s.sdist s.rbt.bands) := h.placeBand (declarationFits_edgesFit fits)
    split
    · next eq => exact (State.changeBands_keepsGrant fun h => by simpa only [eq] using placed h).leaves
    · next eq => exact (State.changeBands_keepsGrant fun h => by simpa only [eq] using placed h).leaves
    · exact s.leavesGrant_refl
  · exact s.leavesGrant_refl

theorem ownRetireBand_leavesGrant : Owner.leavesGrant ownRetireBand := by
  intro f s
  refine State.withBand_leavesGrant (fun b _ => ?_) _
  split
  · exact s.leavesGrant_refl
  · exact (State.changeBands_keepsGrant fun h => h.sublist (removeBand_sublist _ _)).leaves

theorem ownPin_leavesGrant : Owner.leavesGrant ownPin := by
  intro f s
  unfold ownPin
  split
  · exact s.leavesGrant_refl
  · refine State.withBand_leavesGrant (fun b mem => ?_) _
    split
    · have replaced : s.KeepsGrant (s.changeBands (putBand { b with pinned := f.param 0 = 1 } s.rbt.bands)) :=
        State.changeBands_keepsGrant fun h => h.replace mem rfl rfl rfl rfl
      exact replaced.leaves
    · exact s.leavesGrant_refl

theorem ownAmendLoad_leavesGrant : Owner.leavesGrant ownAmendLoad := by
  intro f s
  unfold ownAmendLoad
  split
  · exact s.leavesGrant_refl
  · split
    · exact s.leavesGrant_refl
    · have estimates (b : Ibe) : s.KeepsGrant { s with ibe := b } := State.keepsGrant_of_frame (by simp)
      change s.LeavesGrant (s.amendLoad _)
      unfold State.amendLoad
      dsimp only
      split
      · exact (estimates _).leaves
      · exact ((State.handUpdate_keepsGrant _).after (estimates _)).leaves

theorem ownInject_leavesGrant : Owner.leavesGrant ownInject := by
  intro f s
  unfold ownInject
  dsimp only
  split
  · exact s.leavesGrant_refl
  · exact State.leavesGrant_of_frame (by simp [State.injectTaken, (State.ordersTaken_calm _).part])

theorem ownFlush_leavesGrant : Owner.leavesGrant ownFlush := fun _ _ => State.leavesGrant_of_frame (by simp [ownFlush])

theorem ownCancel_leavesGrant : Owner.leavesGrant ownCancel := fun _ _ => State.leavesGrant_of_frame (by simp [ownCancel])

/-! ### The requests of trips, the part state and the store -/

theorem ownClearTrip_leavesGrant : Owner.leavesGrant ownClearTrip := by
  intro f s
  unfold ownClearTrip
  split_ifs
  · exact s.leavesGrant_refl
  · exact s.leavesGrant_refl
  · exact s.leavesGrant_refl
  · exact s.clearTrip_keepsGrant.leaves

theorem ownQuiet_leavesGrant : Owner.leavesGrant ownQuiet := by
  intro f s
  unfold ownQuiet
  dsimp only
  split_ifs
  · exact s.leavesGrant_refl
  · exact s.leavesGrant_refl
  · exact s.leavesGrant_refl
  · exact s.leavesGrant_refl
  · exact (State.setPart_keepsGrant (State.replans_of_frame (by simp)) .quietPending).leaves

theorem ownReset_leavesGrant : Owner.leavesGrant ownReset := fun _ s => s.leavesGrant_refl

theorem ownKeyVerify_leavesGrant : Owner.leavesGrant ownKeyVerify := by
  intro f s
  have unlocks (unlocked lockout : Bool) :
      s.KeepsGrant { s with cls := { s.cls with unlocked := unlocked, lockout := lockout } } :=
    State.keepsGrant_of_value fun _ => rfl
  unfold ownKeyVerify
  split
  · exact s.leavesGrant_refl
  · split_ifs
    · exact s.leavesGrant_refl
    · exact (unlocks true s.cls.lockout).leaves
    · exact (unlocks s.cls.unlocked true).leaves

theorem ownLock_leavesGrant : Owner.leavesGrant ownLock := fun _ s => s.lockService_keepsGrant.leaves

theorem ownCalWrite_leavesGrant : Owner.leavesGrant ownCalWrite := by
  intro f s
  unfold ownCalWrite
  split
  · dsimp only
    split
    · exact s.leavesGrant_refl
    · next idle =>
      split
      · exact s.leavesGrant_refl
      · exact State.takeWrite_leavesGrant (Bool.eq_false_iff.2 idle) _ _
  · exact s.leavesGrant_refl

theorem lookupOwner_leavesGrant (f : Frame) : (lookupOwner f).leavesGrant := by
  unfold lookupOwner
  split
  · exact ownLookupPlan_leavesGrant
  · exact ownLookupPlateau_leavesGrant
  · exact ownLookupGrant_leavesGrant
  · split
    · exact ownLookupEstimateDelayed_leavesGrant
    · exact ownLookupEstimate_leavesGrant
  · exact ownLookupBand_leavesGrant
  · exact ownLookupChamber_leavesGrant
  · exact ownLookupQueue_leavesGrant
  · exact ownLookupLoad_leavesGrant
  · exact ownLookupStatus_leavesGrant
  · exact ownLookupCal_leavesGrant
  · exact ownNothing_leavesGrant

theorem commandOwner_leavesGrant (f : Frame) : (commandOwner f).leavesGrant := by
  unfold commandOwner
  split
  · exact ownStart_leavesGrant
  · exact ownPause_leavesGrant
  · exact ownResume_leavesGrant
  · exact ownNext_leavesGrant
  · exact ownAbort_leavesGrant
  · exact ownClear_leavesGrant
  · exact ownClearTrip_leavesGrant
  · exact ownFlush_leavesGrant
  · exact ownCancel_leavesGrant
  · exact ownGuard_leavesGrant
  · exact ownQuiet_leavesGrant
  · exact ownLock_leavesGrant
  · exact ownReset_leavesGrant
  · exact ownNothing_leavesGrant

theorem ownerOf_leavesGrant (f : Frame) : (ownerOf f).leavesGrant := by
  unfold ownerOf
  split
  · exact lookupOwner_leavesGrant f
  · exact ownAppend_leavesGrant
  · split
    · exact ownAmendPlateau_leavesGrant
    · exact ownAmendLoad_leavesGrant
  · exact ownWithdraw_leavesGrant
  · split
    · exact ownRetirePlateau_leavesGrant
    · exact ownRetireBand_leavesGrant
  · exact commandOwner_leavesGrant f
  · exact ownInject_leavesGrant
  · exact ownDeclare_leavesGrant
  · exact ownPin_leavesGrant
  · exact ownCalWrite_leavesGrant
  · exact ownKeyVerify_leavesGrant
  · exact ownNothing_leavesGrant

end Sys2Proof.Machine
end

section
/-! The grant over a frame's way to its owner, the ports, and every command. -/

namespace Sys2Proof.Machine

/-! ### A frame's way to its owner -/

theorem State.setPort_sameGrant (p : Port) (v : PortState) (s : State) : s.SameGrant (s.setPort p v) :=
  State.sameGrant_of_frame (by simp [State.setPort_lkp]) (by simp)

theorem State.setPort_keepsGrant (p : Port) (v : PortState) (s : State) : s.KeepsGrant (s.setPort p v) :=
  State.keepsGrant_of_frame (by simp [State.setPort_lkp])

theorem State.examine_leavesGrant {own : Owner} (leaves : own.leavesGrant) (f : Frame) (s : State) :
    s.LeavesGrant (s.examine own f).state := by
  unfold State.examine
  split
  · exact s.leavesGrant_refl
  · split
    · exact s.leavesGrant_refl
    · exact leaves f s

theorem State.cancelledBy_keepsGrant (f : Frame) (s : State) : s.KeepsGrant (s.cancelledBy f) := by
  unfold State.cancelledBy
  split
  · exact s.cancelQuiet_keepsGrant
  · exact .refl s

theorem State.dealAddressed_leavesGrant {own : Owner} (leaves : own.leavesGrant) (f : Frame) (s : State) :
    s.LeavesGrant (s.dealAddressed own f).state := by
  unfold State.dealAddressed
  split
  · exact s.leavesGrant_refl
  · split
    · exact leaves f s
    · exact (s.wakeSource_keepsGrant true).leaves
  · split
    · exact leaves f s
    · exact s.leavesGrant_refl
  · split
    · exact leaves f s
    · exact (State.examine_leavesGrant leaves f _).after (s.cancelledBy_keepsGrant f)
  · exact State.examine_leavesGrant leaves f s

theorem State.dealBroadcast_leavesGrant {own : Owner} (leaves : own.leavesGrant) (f : Frame) (s : State) :
    s.LeavesGrant (s.dealBroadcast own f) := by
  unfold State.dealBroadcast
  split
  · exact s.leavesGrant_refl
  · exact (s.wakeSource_keepsGrant true).leaves
  · exact s.leavesGrant_refl
  · dsimp only
    split
    · exact (leaves f _).after (s.cancelledBy_keepsGrant f)
    · exact (s.cancelledBy_keepsGrant f).leaves
  · split
    · exact leaves f s
    · exact s.leavesGrant_refl

theorem State.receiveBusy_keepsGrant (f : Frame) (s : State) : s.KeepsGrant (s.receiveBusy f) := by
  unfold State.receiveBusy
  split
  · exact s.wakeSource_keepsGrant true
  · exact .refl s

theorem State.deliver_leavesGrant {own : Owner} (leaves : own.leavesGrant) (f : Frame) (s : State) :
    s.LeavesGrant (s.deliver own f) := by
  have clears : s.KeepsGrant (s.clearRx f.port) := State.keepsGrant_of_frame (by simp)
  unfold State.deliver
  dsimp only
  split
  · exact clears.leaves
  · refine State.LeavesGrant.after ?_ clears
    unfold State.receiveBroadcast
    split
    · exact State.dealBroadcast_leavesGrant leaves f _
    · exact (State.receiveBusy_keepsGrant f _).leaves
  · refine State.LeavesGrant.after ?_ clears
    unfold State.receiveAddressed
    dsimp only
    split
    · exact (State.dealAddressed_leavesGrant leaves f _).same (State.setPort_sameGrant _ _ _)
    · split
      · exact ((State.setPort_keepsGrant _ _ _).after (State.receiveBusy_keepsGrant f _)).leaves
      · exact (State.receiveBusy_keepsGrant f _).leaves

/-! ### Characters, gaps and answers -/

theorem State.takeByte_leavesGrant (p : Port) (bs : List Byte) (s : State) : s.LeavesGrant (s.takeByte ownerOf p bs) := by
  have receives (r : Rx) : s.KeepsGrant (s.setRx p r) := s.setPort_keepsGrant _ _
  unfold State.takeByte
  split
  · exact (receives _).leaves
  · split
    · dsimp only
      split
      · exact (State.deliver_leavesGrant (ownerOf_leavesGrant _) _ _).after (receives _)
      · exact (receives _).leaves
    · exact (receives _).leaves

theorem State.takeCharacter_leavesGrant (p : Port) (b : Byte) (stopBit : Bool) (s : State) :
    s.LeavesGrant (s.takeCharacter ownerOf p b stopBit) := by
  unfold State.takeCharacter
  dsimp only
  split
  · exact (s.setPort_keepsGrant _ _).leaves
  · split
    · exact s.takeByte_leavesGrant p _
    · exact (s.setPort_keepsGrant _ _).leaves

/-- RTB's own record may differ in all but the speed and at-rest. -/
theorem State.keepsGrant_of_rtb {s : State} {v : Rtb} (measured : v.measured = s.rtb.measured)
    (atRest : v.atRest = s.rtb.atRest) : s.KeepsGrant { s with rtb := v } :=
  State.SameGrant.keeps ⟨rfl, congrArg (· / 10) measured, atRest, rfl, fun _ => rfl, rfl, rfl, rfl, rfl, rfl, fun _ => rfl⟩
    (fun live => live.congr rfl id) (fun table => table.congr rfl rfl)

theorem State.gapTimeout_keepsGrant (p : Port) (s : State) : s.KeepsGrant (s.gapTimeout p) := by
  have waits (n : Nat) : s.KeepsGrant { s with time := n } := State.keepsGrant_of_frame (by simp)
  unfold State.gapTimeout
  dsimp only
  split
  · exact .refl s
  · exact (State.setPort_keepsGrant _ _ _).after (waits _)

theorem State.answerSent_leavesGrant (p : Port) (s : State) : s.LeavesGrant (s.answerSent p) := by
  unfold State.answerSent
  split
  · exact s.leavesGrant_refl
  · split
    · exact s.leavesGrant_refl
    · split
      · exact State.beginReset_leavesGrant (Or.inl rfl) _ _ _
      · exact (s.setPort_keepsGrant _ _).leaves

/-! ### Commands -/

/-- An outcome is a next state that leaves the grant of `s` safe, and its ceiling and record current. -/
def grantNext (s : State) (o : Host.Outcome State Fault Refusal) : Prop := ∃ t, o = .next t ∧ s.LeavesGrant t

theorem grantNext_next {s t : State} (h : s.LeavesGrant t) : grantNext s (.next t) := ⟨t, rfl, h⟩

theorem State.elapse_keepsGrant (n : Nat) (s : State) : s.KeepsGrant (s.elapse n) := State.keepsGrant_of_frame (by simp)

theorem received_leavesGrant {own : Owner} (leaves : own.leavesGrant) (after : Nat) (f : Frame) (s : State) :
    grantNext s (received after own f s) :=
  grantNext_next ((State.deliver_leavesGrant leaves f _).after (s.elapse_keepsGrant after))

theorem fromOutside_leavesGrant {f : State → State} (keeps : ∀ u : State, u.KeepsGrant (f u)) (after : Nat) (s : State) :
    grantNext s (fromOutside after f s) := by
  refine grantNext_next ?_
  split
  · exact (s.elapse_keepsGrant after).leaves
  · exact ((keeps _).after (s.elapse_keepsGrant after)).leaves

theorem onExpiry_leavesGrant {f : State → State} (leaves : ∀ u : State, u.LeavesGrant (f u)) (timer : Option Nat)
    (s : State) : grantNext s (onExpiry timer f s) := by
  unfold onExpiry
  split
  · exact grantNext_next s.leavesGrant_refl
  · refine grantNext_next ?_
    split
    · exact s.leavesGrant_refl
    · exact (leaves _).after (State.keepsGrant_of_frame (by simp))

theorem execPowerOn_leavesGrant (after reached : Nat) (s : State) : grantNext s (execPowerOn after reached s) :=
  grantNext_next ((State.beginReset_leavesGrant (Or.inl rfl) _ _ _).after (s.elapse_keepsGrant after))

theorem execResetNAsserted_leavesGrant (after reached : Nat) (s : State) :
    grantNext s (execResetNAsserted after reached s) := by
  refine grantNext_next (State.LeavesGrant.after ?_ (s.elapse_keepsGrant after))
  split
  · exact State.leavesGrant_refl _
  · exact State.beginReset_leavesGrant (Or.inr rfl) _ _ _

theorem execResetNNegated_leavesGrant (after : Nat) (s : State) : grantNext s (execResetNNegated after s) := by
  refine grantNext_next (State.LeavesGrant.after ?_ (s.elapse_keepsGrant after))
  generalize s.elapse after = t
  split
  · exact t.leavesGrant_refl
  · split
    · next timed => exact State.staysInReset_leavesGrant (rst := { t.rst with resetN := false }) (Or.inl timed) t.time
    · exact State.endReset_leavesGrant _ _

theorem execResetTimerExpiry_leavesGrant (s : State) : grantNext s (execResetTimerExpiry s) := by
  unfold execResetTimerExpiry
  split
  · exact grantNext_next s.leavesGrant_refl
  · refine grantNext_next ?_
    dsimp only
    split
    · next asserted =>
      exact State.staysInReset_leavesGrant (rst := { s.rst with timer := none }) (Or.inr asserted) _
    · exact State.endReset_leavesGrant _ _

theorem execEndOfStartUp_leavesGrant (s : State) : grantNext s (execEndOfStartUp s) := by
  refine onExpiry_leavesGrant (fun u => ?_) _ s
  have started : u.KeepsGrant (State.setPart .run { u with startUp := none }) :=
    State.setPart_keepsGrant (State.replans_of_frame (by simp)) _
  exact ((State.post_keepsGrant .restart _).after started).leaves

theorem execQuietCountdownExpiry_leavesGrant (s : State) : grantNext s (execQuietCountdownExpiry s) := by
  refine onExpiry_leavesGrant (fun u => ?_) _ s
  have quiet : u.KeepsGrant (State.setPart .quiet { u with lkp := { u.lkp with quietTimer := none } }) :=
    State.setPart_keepsGrant (State.replans_of_frame (by simp)) _
  exact quiet.leaves

theorem execWakeTimerExpiry_leavesGrant (s : State) : grantNext s (execWakeTimerExpiry s) := by
  refine onExpiry_leavesGrant (fun u => ?_) _ s
  have woken : u.KeepsGrant (State.setPart .run { u with lkp := { u.lkp with wakeTimer := none } }) :=
    State.setPart_keepsGrant (State.replans_of_frame (by simp)) _
  exact ((State.post_keepsGrant .wake _).after woken).leaves

theorem execSlotEvent_leavesGrant (codes : Four Code) (s : State) : grantNext s (execSlotEvent codes s) := by
  unfold execSlotEvent
  split
  · exact grantNext_next s.leavesGrant_refl
  · have waits (u : State) (n : Nat) : u.KeepsGrant (u.atInstant n) := State.keepsGrant_of_frame (by simp)
    have converts (u : State) (k : Nat) : u.KeepsGrant (u.convertSlot k codes) := State.keepsGrant_of_frame (by simp)
    have advances (u : State) (r : Revolution) : u.KeepsGrant { u with rtb := { u.rtb with revolution := r } } :=
      State.keepsGrant_of_rtb rfl rfl
    exact grantNext_next ((converts _ _).after ((advances _ _).after (waits _ _))).leaves

theorem State.staticSample_keepsGrant (codes : Four Code) (s : State) : s.KeepsGrant (s.staticSample codes) := by
  have samples (c : Csm) : s.KeepsGrant (State.recomputeSag { s with csm := c }) := State.keepsGrant_of_frame (by simp)
  have watches (u : State) : u.KeepsGrant u.watchSag := by
    have refers (c : Csm) : u.KeepsGrant { u with csm := c } := State.keepsGrant_of_frame (by simp)
    unfold State.watchSag
    split
    · exact .refl u
    · exact refers _
    · split
      · exact (State.wakeSource_keepsGrant _ _).after (refers _)
      · exact .refl u
  unfold State.staticSample
  dsimp only
  split
  · exact (watches _).after (samples _)
  · exact samples _

theorem execIndexOverdue_leavesGrant (s : State) : grantNext s (execIndexOverdue s) := by
  refine onExpiry_leavesGrant (fun u => ?_) _ s
  have stops : u.KeepsGrant { u with rtb := { u.rtb with overdue := none } } := State.keepsGrant_of_rtb rfl rfl
  exact ((State.findCause_keepsGrant _ _).after stops).leaves

theorem execGiveUpTimerExpiry_leavesGrant (s : State) : grantNext s (execGiveUpTimerExpiry s) := by
  unfold execGiveUpTimerExpiry
  split
  · exact onExpiry_leavesGrant (fun u => State.leavesGrant_of_frame (by simp [(u.latchReady_calm _ _ _).part])) _ s
  · exact grantNext_next s.leavesGrant_refl
  · exact grantNext_next s.leavesGrant_refl

theorem execDiscardTimerExpiry_leavesGrant (s : State) : grantNext s (execDiscardTimerExpiry s) := by
  unfold execDiscardTimerExpiry
  split
  · exact onExpiry_leavesGrant (fun u => State.leavesGrant_of_frame (by simp [u.discardLatch_calm.part])) _ s
  · exact grantNext_next s.leavesGrant_refl
  · exact grantNext_next s.leavesGrant_refl

theorem State.openWindow_keepsGrant (w : Window) (s : State) : s.KeepsGrant (s.openWindow w) := by
  have ring (r : Ric) : s.KeepsGrant { s with ric := r } := State.keepsGrant_of_frame (by simp)
  unfold State.openWindow
  dsimp only
  split
  · split
    · exact (State.orderServing_keepsGrant _).after (ring _)
    · exact ring _
  · exact ring _

theorem execOpenInstant_leavesGrant (chamber : Fin 4) (s : State) : grantNext s (execOpenInstant chamber s) := by
  have waits (n : Nat) : s.KeepsGrant (s.atInstant n) := State.keepsGrant_of_frame (by simp)
  unfold execOpenInstant
  split
  · exact grantNext_next s.leavesGrant_refl
  · exact grantNext_next ((State.openWindow_keepsGrant _ _).after (waits _)).leaves

theorem execCloseInstant_leavesGrant (s : State) : grantNext s (execCloseInstant s) := by
  unfold execCloseInstant
  split
  · exact grantNext_next s.leavesGrant_refl
  · exact grantNext_next (State.leavesGrant_of_frame (by simp))

/-- A pin's change goes to TMO's debounce timer alone (R151, R160). -/
theorem pinChange_leavesGrant {s t : State} (pins : s.KeepsGrant t) {v : Tmo} (first : v.first = t.tmo.first)
    (lid : v.lid = t.tmo.lid) : grantNext s (.next (if t.inReset then t else { t with tmo := v })) := by
  refine grantNext_next ?_
  split
  · exact pins.leaves
  · exact ((State.keepsGrant_of_tmo first lid).after pins).leaves

theorem exec_leavesGrant (c : Instr) (s : State) : grantNext s (exec c s) := by
  cases c with
  | powerOn after reached => exact execPowerOn_leavesGrant after reached s
  | resetNAsserted after reached => exact execResetNAsserted_leavesGrant after reached s
  | resetNNegated after => exact execResetNNegated_leavesGrant after s
  | resetTimerExpiry => exact execResetTimerExpiry_leavesGrant s
  | endOfStartUp => exact execEndOfStartUp_leavesGrant s
  | indexEdge after rising order => exact fromOutside_leavesGrant (fun u => u.indexEdge_keepsGrant rising order) after s
  | slotEvent codes => exact execSlotEvent_leavesGrant codes s
  | restTimerExpiry order => exact onExpiry_leavesGrant (fun u => (u.standstill_keepsGrant order).leaves) _ s
  | indexOverdue => exact execIndexOverdue_leavesGrant s
  | staticTimerExpiry codes => exact onExpiry_leavesGrant (fun u => (u.staticSample_keepsGrant codes).leaves) _ s
  | giveUpTimerExpiry => exact execGiveUpTimerExpiry_leavesGrant s
  | discardTimerExpiry => exact execDiscardTimerExpiry_leavesGrant s
  | dwellTick => exact onExpiry_leavesGrant State.dwellTick_leavesGrant _ s
  | openInstant chamber => exact execOpenInstant_leavesGrant chamber s
  | closeInstant => exact execCloseInstant_leavesGrant s
  | bleedTick => exact onExpiry_leavesGrant (fun u => State.leavesGrant_of_frame (by simp)) _ s
  | unknownTimerExpiry => exact onExpiry_leavesGrant (fun u => State.leavesGrant_of_frame (by simp)) _ s
  | strikePinChange after level =>
    exact pinChange_leavesGrant (t := { s.elapse after with strikePin := level }) (State.keepsGrant_of_frame (by simp)) rfl rfl
  | strikeDebounceExpiry => exact onExpiry_leavesGrant (fun u => u.strikeSettles_keepsGrant.leaves) _ s
  | lidlkPinChange after level =>
    exact pinChange_leavesGrant (t := { s.elapse after with lidPin := level }) (State.keepsGrant_of_frame (by simp)) rfl rfl
  | lidDebounceExpiry => exact onExpiry_leavesGrant (fun u => u.lidSettles_keepsGrant.leaves) _ s
  | frameGapTimeout port => exact grantNext_next (s.gapTimeout_keepsGrant port).leaves
  | answerSent after port =>
    exact grantNext_next ((State.answerSent_leavesGrant port _).after (s.elapse_keepsGrant after))
  | quietCountdownExpiry => exact execQuietCountdownExpiry_leavesGrant s
  | wakeTimerExpiry => exact execWakeTimerExpiry_leavesGrant s
  | programmingDone after => exact fromOutside_leavesGrant State.programmingDone_keepsGrant after s
  | lookupPlan after r => exact received_leavesGrant ownLookupPlan_leavesGrant after _ s
  | lookupPlateau after r => exact received_leavesGrant ownLookupPlateau_leavesGrant after _ s
  | lookupGrant after r => exact received_leavesGrant ownLookupGrant_leavesGrant after _ s
  | lookupEstimate after r => exact received_leavesGrant ownLookupEstimate_leavesGrant after _ s
  | lookupEstimateDelayed after r => exact received_leavesGrant ownLookupEstimateDelayed_leavesGrant after _ s
  | lookupLoad after r => exact received_leavesGrant ownLookupLoad_leavesGrant after _ s
  | lookupBand after r => exact received_leavesGrant ownLookupBand_leavesGrant after _ s
  | lookupChamber after r => exact received_leavesGrant ownLookupChamber_leavesGrant after _ s
  | lookupQueue after r => exact received_leavesGrant ownLookupQueue_leavesGrant after _ s
  | lookupStatus after r => exact received_leavesGrant ownLookupStatus_leavesGrant after _ s
  | lookupCal after r => exact received_leavesGrant ownLookupCal_leavesGrant after _ s
  | append after r => exact received_leavesGrant ownAppend_leavesGrant after _ s
  | amendPlateau after r => exact received_leavesGrant ownAmendPlateau_leavesGrant after _ s
  | amendLoad after r => exact received_leavesGrant ownAmendLoad_leavesGrant after _ s
  | withdraw after r => exact received_leavesGrant ownWithdraw_leavesGrant after _ s
  | retirePlateau after r => exact received_leavesGrant ownRetirePlateau_leavesGrant after _ s
  | retireBand after r => exact received_leavesGrant ownRetireBand_leavesGrant after _ s
  | declare after r => exact received_leavesGrant ownDeclare_leavesGrant after _ s
  | pin after r => exact received_leavesGrant ownPin_leavesGrant after _ s
  | inject after r => exact received_leavesGrant ownInject_leavesGrant after _ s
  | start after r => exact received_leavesGrant ownStart_leavesGrant after _ s
  | pause after r => exact received_leavesGrant ownPause_leavesGrant after _ s
  | resume after r => exact received_leavesGrant ownResume_leavesGrant after _ s
  | next after r => exact received_leavesGrant ownNext_leavesGrant after _ s
  | abort after r => exact received_leavesGrant ownAbort_leavesGrant after _ s
  | clear after r => exact received_leavesGrant ownClear_leavesGrant after _ s
  | guard after r => exact received_leavesGrant ownGuard_leavesGrant after _ s
  | flush after r => exact received_leavesGrant ownFlush_leavesGrant after _ s
  | cancel after r => exact received_leavesGrant ownCancel_leavesGrant after _ s
  | clearTrip after r => exact received_leavesGrant ownClearTrip_leavesGrant after _ s
  | quiet after r => exact received_leavesGrant ownQuiet_leavesGrant after _ s
  | reset after r => exact received_leavesGrant ownReset_leavesGrant after _ s
  | lock after r => exact received_leavesGrant ownLock_leavesGrant after _ s
  | calWrite after r => exact received_leavesGrant ownCalWrite_leavesGrant after _ s
  | keyVerify after r => exact received_leavesGrant ownKeyVerify_leavesGrant after _ s
  | characterReceived after port byte stopBit =>
    exact grantNext_next ((State.takeCharacter_leavesGrant port byte stopBit _).after (s.elapse_keepsGrant after))

theorem step_leavesGrant (s : State) : grantNext s (step s) := by
  unfold step
  split
  · exact grantNext_next (s.elapse_keepsGrant 1).leaves
  · next c rest _ =>
    have takes : s.KeepsGrant { s with pending := rest } := State.keepsGrant_of_frame (by simp)
    obtain ⟨t, runs, leaves⟩ := exec_leavesGrant c { s with pending := rest }
    exact ⟨t, runs, leaves.after takes⟩

/-- Settles O60: every evaluation of the grant puts a record that is safe and that is the one of its state
(`State.evaluateGrant_evaluated`), every computation of the ceiling follows stages A to D (`State.computeCeiling_fits`), and each
operation between two evaluations changes nothing that either is read from (`State.SameGrant`), so each command keeps all three
(`step_leavesGrant`). -/
theorem stepKeepsTheGrantSafe : Obligations.StepKeepsTheGrantSafe := by
  intro s t runs plan bands safe
  obtain ⟨u, next, leaves⟩ := step_leavesGrant s
  obtain rfl : u = t := Host.Outcome.next.inj (next.symm.trans runs)
  obtain ⟨safeNext, stays⟩ := leaves (State.sound_of_safe plan bands safe)
  exact ⟨safeNext, stays.ceiling, stays.record⟩

end Sys2Proof.Machine
end

section
/-! What a held derivation leaves: the marks of the search and the flags of the ACTIVE record (R112 to R115). -/

namespace Sys2Proof.Machine

/-! ### The ACTIVE record -/

theorem find_active_mapActive {f : Plateau → Plateau} (active : ∀ p, p.isActive = true → (f p).isActive = true)
    (ps : List Plateau) : (mapActive f ps).find? Plateau.isActive = (ps.find? Plateau.isActive).map f := by
  have changed (p : Plateau) : (if p.isActive then f p else p).isActive = p.isActive := by
    split
    · next is => rw [active p is, is]
    · rfl
  refine (find_active_map fun p _ => changed p).trans (Option.map_congr fun p found => ?_)
  exact if_pos (List.find?_some (Option.mem_def.1 found))

theorem State.updateActive_active {f : Plateau → Plateau} (active : ∀ p, p.isActive = true → (f p).isActive = true)
    (s : State) : (s.updateActive f).active = s.active.map f := find_active_mapActive active _

/-- An evaluation leaves the ACTIVE record, or finds the basket of a RUNNING plan arrived at 0 (R117). -/
theorem State.evaluateGrant_active (n : Nat) (s : State) : (s.evaluateGrant n).active = s.active ∨
    (s.spm.plan = .running ∧ (s.evaluateGrant n).active = s.active.map (Plateau.withPhase .dwelling)) := by
  have kept (g : GrantRecord) (old : Nat) : ((s.putGrant g).speedChanged old).spm.plan = s.spm.plan ∧
      ((s.putGrant g).speedChanged old).active = s.active := by
    unfold State.speedChanged State.putGrant
    split_ifs <;> exact ⟨rfl, rfl⟩
  obtain ⟨plan, active⟩ := kept (s.grantRecord n) s.spm.grant.speed
  change State.active (State.arriveAtZero _) = _ ∨ _ ∧ State.active (State.arriveAtZero _) = _
  generalize State.speedChanged s.spm.grant.speed (s.putGrant (s.grantRecord n)) = u at *
  unfold State.arriveAtZero
  split
  · next arrived =>
    simp only [Bool.and_eq_true, decide_eq_true_eq] at arrived
    refine Or.inr ⟨plan ▸ arrived.1.1.1, ?_⟩
    rw [State.updateActive_active (fun _ _ => rfl), active]
  · exact Or.inl active

/-- Of the ACTIVE record an evaluation changes the phase alone. -/
theorem State.evaluateGrant_record {s : State} {p : Plateau} (active : s.active = some p) (n : Nat) :
    ∃ q, (s.evaluateGrant n).active = some q ∧ q = { p with state := q.state } := by
  rcases s.evaluateGrant_active n with same | ⟨-, dwells⟩
  · exact ⟨p, same.trans active, rfl⟩
  · exact ⟨p.withPhase .dwelling, by rw [dwells, active]; rfl, rfl⟩

/-! ### Steps 1 to 3 -/

/-- A derivation is marked band-moved where c is not the lesser of target and ceiling, and rejecting where its value is not c. -/
theorem State.derivation_marks (p : Plateau) (s : State) :
    let c := s.outOfBands (min p.target s.spm.ceiling.value)
    (s.derivation p).bandMoved = decide (c ≠ min p.target s.spm.ceiling.value) ∧
      ∀ v, (s.derivation p).value = some v → (s.derivation p).rejecting = decide (v ≠ c) := by
  intro c
  unfold State.derivation
  dsimp only
  split
  · exact ⟨rfl, fun v value => by simp [← Option.some.inj value, c]⟩
  · exact ⟨rfl, fun v value => congrArg (Option.any fun n => decide (n ≠ c)) value⟩

/-- A failed search: REBALANCE at Sdist, with the ACTIVE record HELD (R113). -/
theorem State.rebalance_rebalances {s : State} {p : Plateau} (active : s.active = some p) (unforced : s.grantForced = false) :
    (s.rebalance.spm.plan = .paused .rebalance ∧ s.rebalance.spm.derived = none ∧
      s.rebalance.spm.grant.speed = s.rebalance.sdist ∧ s.rebalance.lkp.notices.rebalance = true ∧
      s.rebalance.lkp.notices.planState = true ∧ s.rebalance.activePhase = some .held) ∧
    ∃ q, s.rebalance.active = some q ∧ q = { p with state := q.state } := by
  unfold State.rebalance
  generalize hw : (s.post .rebalance).pausePlan .rebalance = w
  have paused : w.spm.plan = .paused .rebalance := by rw [← hw]; rfl
  have held : w.active = some (p.withPhase .held) := by
    rw [← hw]
    exact (find_active_mapActive (fun _ _ => rfl) s.spm.plateaus).trans (congrArg _ active)
  have notices : w.lkp.notices.rebalance = true ∧ w.lkp.notices.planState = true := by rw [← hw]; exact ⟨rfl, rfl⟩
  have still : w.grantForced = false := by rw [← hw]; exact unforced
  have kept : (w.evaluateGrant 0).active = some (p.withPhase .held) := by
    rcases w.evaluateGrant_active 0 with same | ⟨running, -⟩
    · exact same.trans held
    · exact nomatch running.symm.trans paused
  obtain ⟨plan, -, told⟩ := w.evaluateGrant_rest 0
  refine ⟨⟨plan.trans paused, ?_, ?_, ?_, ?_, ?_⟩, _, kept, rfl⟩
  · rw [State.evaluateGrant_derived, ← hw]
    rfl
  · rw [State.evaluateGrant_speed, State.grantSpeed, still, paused,
      State.sdist_congr (s := w) (t := w.evaluateGrant 0) (by simp)]
    rfl
  · rw [told]
    exact notices.1
  · rw [told]
    exact notices.2
  · rw [State.activePhase, kept]
    rfl

/-- The flags and the marks of a derivation put, before the grant is evaluated. -/
def State.withDerived (p : Plateau) (v : Nat) (s : State) : State :=
  let t := s.updateActive (Plateau.flagged (s.derivation p))
  { t with spm := { t.spm with
      derived := some v, rejecting := (s.derivation p).rejecting, bandMoved := (s.derivation p).bandMoved } }

section

variable {s : State} {p : Plateau} (running : s.spm.plan = .running) (active : s.active = some p)
include running active

theorem State.derive_held_some {v : Nat} (value : (s.derivation p).value = some v) :
    s.derive .held = (s.withDerived p v).evaluateGrant (s.holdRule v) := by
  simp only [State.derive, running, active, value]
  rfl

theorem State.derive_none (k : DerivationKind) (value : (s.derivation p).value = none) :
    s.derive k = (s.updateActive (Plateau.flagged (s.derivation p))).rebalance := by
  simp only [State.derive, running, active, value]

theorem State.derive_held_grant (unforced : s.grantForced = false) {v : Nat} (value : (s.derivation p).value = some v) :
    (s.derive .held).spm.grant.speed = s.holdRule v := by
  have still : (s.withDerived p v).grantForced = false := unforced
  have runs : (s.withDerived p v).spm.plan = .running := running
  rw [State.derive_held_some running active value, State.evaluateGrant_speed, State.grantSpeed, still, runs]
  rfl

theorem State.derive_held_derivedFrom (unforced : s.grantForced = false) :
    (s.derive .held).derivedFrom p (s.outOfBands (min p.target s.spm.ceiling.value)) (s.derivation p).value := by
  obtain ⟨moved, rejecting⟩ := s.derivation_marks p
  have flagged : (s.updateActive (Plateau.flagged (s.derivation p))).active = some (p.flagged (s.derivation p)) := by
    rw [State.updateActive_active (f := Plateau.flagged (s.derivation p)) (fun _ is => is), active]
    rfl
  rw [State.derivedFrom, State.derive_ceiling, ← moved]
  cases value : (s.derivation p).value with
  | some v =>
    rw [State.derive_held_some running active value]
    generalize s.holdRule v = want
    have same := (s.withDerived p v).evaluateGrant_sameGrant want
    obtain ⟨derived, rejects, bandMoved⟩ := same.search
    obtain ⟨q, found, fields⟩ := State.evaluateGrant_record (s := s.withDerived p v) flagged want
    refine ⟨fun n is => ?_, nofun, q, found, ?_, ?_, ?_⟩
    · obtain rfl := Option.some.inj is
      exact ⟨same.plan.trans running, derived, rejects.trans (rejecting v value), bandMoved⟩
    · rw [fields]
      rfl
    · rw [fields, ← value]
      rfl
    · rw [fields]
      rfl
  | none =>
    rw [State.derive_none running active .held value]
    have forced : (s.updateActive (Plateau.flagged (s.derivation p))).grantForced = false := unforced
    obtain ⟨rebalances, q, found, fields⟩ := State.rebalance_rebalances flagged forced
    refine ⟨nofun, fun _ => rebalances, q, found, ?_, ?_, ?_⟩
    · rw [fields]
      rfl
    · rw [fields, ← value]
      rfl
    · rw [fields]
      rfl

end

/-! ### Step 4 -/

theorem State.holdRule_isHeldGrant {s : State} (margin : ∀ b ∈ s.rbt.bands, 20 ≤ b.lower) (v : Nat) :
    isHeldGrant s.rbt.bands s.spm.update.settled s.spm.grant.speed v (s.holdRule v) := by
  refine ⟨if s.spm.grant.speed = 0 then 0 else s.outOfBands s.spm.grant.speed, fun zero => if_pos zero,
    fun positive => ?_, ?_⟩
  · rw [if_neg (by omega)]
    exact s.isMovedOut_outOfBands margin _
  · unfold State.holdRule
    dsimp only
    generalize (if s.spm.grant.speed = 0 then 0 else s.outOfBands s.spm.grant.speed) = e
    refine ⟨fun low => if_pos low, fun high settled => ?_, fun high rests => ?_⟩
    · rw [if_neg (by omega), if_pos (by simp [high, settled])]
    · rw [if_neg (by omega), if_neg (by simpa using rests)]

end Sys2Proof.Machine
end

section
/-! A change of the guard level, and what GUARD and LOCK make of it (R87 to R89, R184). -/

namespace Sys2Proof.Machine

/-! ### A held derivation under a new ceiling -/

/-- A held derivation for the ACTIVE record of `s`, from its grant, has led to `t` (R110 to R115). -/
def State.derivesHeld (s t : State) : Prop :=
  ∃ p c value, s.active = some p ∧ t.derives p c value ∧ t.derivedFrom p c value ∧
    ∀ v, value = some v → isHeldGrant t.rbt.bands t.spm.update.settled s.spm.grant.speed v t.spm.grant.speed

theorem State.derives_congr {s t : State} (same : s.SameCeiling t) (receptance : ∀ n, t.receptance n = s.receptance n)
    {p : Plateau} {c : Nat} {value : Option Nat} (derives : s.derives p c value) : t.derives p c value := by
  simpa only [State.derives, State.steady, State.sdist, State.lst, State.guardFactor, receptance, same.ceiling, same.update,
    same.guard, same.bands, same.value] using derives

theorem State.receptance_congr {s t : State} (ibe : t.ibe = s.ibe) (cls : t.cls = s.cls) (n : Nat) :
    t.receptance n = s.receptance n := by
  unfold State.receptance State.tableClass
  rw [ibe, cls]

/-- Of the link state the notices alone are read, and nothing of RIC. -/
theorem State.derivesHeld.congr {s t u : State} (h : s.derivesHeld t)
    (frame : u.rst = t.rst ∧ u.rtb = t.rtb ∧ u.rbt = t.rbt ∧ u.ibe = t.ibe ∧ u.cls = t.cls ∧ u.spm = t.spm ∧
      u.lkp.notices = t.lkp.notices) : s.derivesHeld u := by
  obtain ⟨rst, rtb, rbt, ibe, cls, spm, notices⟩ := frame
  obtain ⟨p, c, value, active, derives, derivedFrom, held⟩ := h
  have same : t.SameCeiling u := State.sameCeiling_of_frame ⟨rst, by rw [rtb], rbt, cls⟩ (by simp [spm])
  refine ⟨p, c, value, active, State.derives_congr same (State.receptance_congr ibe cls) derives, ?_, ?_⟩
  · simpa only [State.derivedFrom, State.activePhase, State.active, State.sdist, spm, cls, notices] using derivedFrom
  · simpa only [rbt, spm] using held

theorem State.ceilingAndGrant_derivesHeld {s : State} (running : s.spm.plan = .running) (active : s.active ≠ none)
    (unforced : s.grantForced = false) (above : s.bandsAbove) : s.derivesHeld s.ceilingAndGrant := by
  obtain ⟨p, found⟩ := Option.ne_none_iff_exists'.1 active
  have runs : s.computeCeiling.spm.plan = .running := running
  have finds : s.computeCeiling.active = some p := found
  have still : s.computeCeiling.grantForced = false := unforced
  refine ⟨p, _, _, found, ?_, State.derive_held_derivedFrom runs finds still, fun v value => ?_⟩
  · exact State.derives_congr (s.computeCeiling.derive_sameCeiling .held) (State.receptance_congr (by simp) (by simp))
      (s.computeCeiling.derives_derivation p above.margin)
  · rw [State.ceilingAndGrant, State.derive_held_grant runs finds still value, (State.derive_sameCeiling _ _).update,
      (State.derive_sameCeiling _ _).bands]
    exact State.holdRule_isHeldGrant (s := s.computeCeiling) above.margin v

/-! ### The ceiling after a report -/

theorem State.ceilingAndGrant_fits (s : State) : s.ceilingAndGrant.ceilingFits s.ceilingAndGrant.spm.ceiling := by
  rw [State.ceilingAndGrant_now]
  exact State.ceilingFits_now _

/-- A report leaves a ceiling of the inputs in force, or computes one (R85). -/
theorem State.planReport_fits {s : State} (fits : s.ceilingFits s.spm.ceiling) :
    s.planReport.ceilingFits s.planReport.spm.ceiling := by
  unfold State.planReport
  split
  · exact s.refreeze_sameGrant.sameCeiling.fits fits
  · refine s.closeSpan.refreeze_sameGrant.sameCeiling.fits ?_
    rcases s.closeSpan_cases with same | ⟨w, closes, -⟩
    · exact same.sameCeiling.fits fits
    · rw [closes]
      exact w.ceilingAndGrant_fits

/-! ### A change of the guard level -/

/-- The guard level put, and the update given where SETTLED changes with it (R89). -/
def State.guardGiven (g : GuardLevel) (s : State) : State :=
  let t : State := { s with spm := { s.spm with guard := g } }
  if t.settled = s.settled then t else t.giveUpdate

theorem State.changeGuard_same {g : GuardLevel} {s : State} (same : s.spm.guard = g) : s.changeGuard g = s := if_pos same.symm

theorem State.changeGuard_other {g : GuardLevel} {s : State} (other : s.spm.guard ≠ g) :
    s.changeGuard g = (s.guardGiven g).ceilingAndGrant.planReport := if_neg (Ne.symm other)

/-- Of the plan the guard level and the update are new; of the estimate the latch and the ring-quiet count may be. -/
theorem State.guardGiven_spm (g : GuardLevel) (s : State) :
    (s.guardGiven g).spm = { s.spm with guard := g, update := (s.guardGiven g).spm.update } := by
  unfold State.guardGiven
  dsimp only
  split
  · rfl
  · simp [State.giveUpdate]

theorem State.giveUpdate_ibe (s : State) :
    s.giveUpdate.ibe = { s.ibe with latch := s.giveUpdate.ibe.latch, ringQuiet := s.giveUpdate.ibe.ringQuiet } := by
  change s.testLatch.autoPost.ibe = { s.ibe with
    latch := s.testLatch.autoPost.ibe.latch, ringQuiet := s.testLatch.autoPost.ibe.ringQuiet }
  rw [State.autoPost_ibe, State.testLatch_ibe]

theorem State.guardGiven_ibe (g : GuardLevel) (s : State) : (s.guardGiven g).ibe =
    { s.ibe with latch := (s.guardGiven g).ibe.latch, ringQuiet := (s.guardGiven g).ibe.ringQuiet } := by
  unfold State.guardGiven
  dsimp only
  split
  · rfl
  · exact State.giveUpdate_ibe _

theorem State.guardGiven_part (g : GuardLevel) (s : State) : (s.guardGiven g).lkp.part = s.lkp.part := by
  unfold State.guardGiven
  dsimp only
  split
  · rfl
  · exact (State.autoPost_calm _).part.trans (State.testLatch_calm _).part

theorem State.guardGiven_frame (g : GuardLevel) (s : State) :
    s.sameSensing (s.guardGiven g) ∧ (s.guardGiven g).rbt = s.rbt := by
  unfold State.guardGiven State.sameSensing
  dsimp only
  split <;> simp

/-- What a change of the guard level makes of the state (R85, R89). -/
structure State.GuardChanged (g : GuardLevel) (s t : State) : Prop where
  guard : t.spm.guard = g
  ceiling : t.ceilingFits t.spm.ceiling
  ibe : t.ibe = { s.ibe with latch := t.ibe.latch, ringQuiet := t.ibe.ringQuiet }
  sensing : s.sameSensing t
  part : t.lkp.part = s.lkp.part
  plan : s.spm.plan ≠ .running → t.spm.plan = s.spm.plan
  restartHold : t.spm.restartHold = s.spm.restartHold
  rbt : s.rbt.span = none → t.rbt = s.rbt
  derives : s.spm.plan = .running → s.rbt.span = none → s.grantForced = false → s.bandsSafe = true →
    s.planConsistent = true → s.derivesHeld t

theorem State.changeGuard_guardChanged {g : GuardLevel} {s : State} (other : s.spm.guard ≠ g) :
    s.GuardChanged g (s.changeGuard g) := by
  rw [State.changeGuard_other other]
  obtain ⟨sensing, rbt⟩ := s.guardGiven_frame g
  have spm := s.guardGiven_spm g
  have ibe := s.guardGiven_ibe g
  have part := s.guardGiven_part g
  generalize s.guardGiven g = u at *
  have op := u.ceilingAndGrant_planOp.trans (State.planReport_planOp _)
  have plan : u.spm.plan = s.spm.plan := by rw [spm]
  have restartHold : u.spm.restartHold = s.spm.restartHold := by rw [spm]
  have kept : u.ceilingAndGrant.planReport.ibe = u.ibe := by simp
  refine ⟨op.guard.trans (by rw [spm]), State.planReport_fits u.ceilingAndGrant_fits, by rw [kept, ← ibe], ?_,
    op.part.trans part, fun idle => (op.idle_plan (by rwa [plan])).trans plan, op.restartHold.trans restartHold,
    fun closed => ?_, fun running closed unforced bands consistent => ?_⟩
  · simpa [State.sameSensing] using sensing
  · rw [State.planReport_rbt (by simpa [rbt] using closed)]
    simpa using rbt
  · obtain ⟨-, -, tmo, cls, -⟩ := sensing
    have active : u.active = s.active := by rw [State.active, spm, State.active]
    have above : u.bandsAbove := ((State.tableSafe_of_safe bands).congr rbt (State.sdist_congr cls)).bandsAbove
    have derives := State.ceilingAndGrant_derivesHeld (plan.trans running)
      (by rw [active]; exact (State.planLive_of_consistent consistent).active (by rw [running]; rfl))
      ((State.grantForced_congr tmo restartHold part).trans unforced) above
    rw [State.planReport_closed (by simpa [rbt] using closed)]
    refine State.derivesHeld.congr (t := u.ceilingAndGrant) ?_ (by simp)
    have speed : u.spm.grant.speed = s.spm.grant.speed := by rw [spm]
    simpa only [State.derivesHeld, active, speed] using derives

/-- The answer of a request is nothing to it. -/
theorem State.GuardChanged.answered {g : GuardLevel} {after : Nat} {s u : State}
    (h : (s.taking after .cycle).GuardChanged g u) (f : Frame) (o : Outcome) :
    s.GuardChanged g (State.finish f (u.answer o)) := by
  have sensing := State.sameSensing_answered h.sensing f o []
  have frame := State.finish_frame f (u.answer o)
  have part : (State.finish f (u.answer o)).lkp.part = u.lkp.part := (State.setPort_lkp _ _ _).2.2.2.1
  have notices : (State.finish f (u.answer o)).lkp.notices = u.lkp.notices := (State.setPort_lkp _ _ _).2.2.1
  obtain ⟨-, rst, -, -, -, rtb, -, ibe, rbt, spm, -, -, cls, -⟩ := frame
  have same : u.SameCeiling (State.finish f (u.answer o)) :=
    State.sameCeiling_of_frame ⟨rst, by rw [rtb]; rfl, rbt, cls⟩ (by rw [spm]; exact ⟨rfl, rfl, rfl⟩)
  refine ⟨by rw [spm]; exact h.guard, same.fits h.ceiling, by rw [ibe]; exact h.ibe, sensing, part.trans h.part,
    by rw [spm]; exact h.plan, by rw [spm]; exact h.restartHold, by rw [rbt]; exact h.rbt,
    fun running closed unforced bands consistent => ?_⟩
  exact State.derivesHeld.congr (h.derives running closed unforced bands consistent) ⟨rst, rtb, rbt, ibe, cls, spm, notices⟩

/-! ### GUARD -/

/-- The level that a word asks for (R88). -/
def asksGuard (level : Word) (unlocked : Bool) (g : GuardLevel) : Prop :=
  (level.toNat = 0 ∧ g = .normal) ∨ (level.toNat = 1 ∧ g = .tight) ∨ (level.toNat = 2 ∧ unlocked = true ∧ g = .test)

theorem guardOf_none {n : Nat} (high : 2 < n) : guardOf n = none := by
  obtain ⟨m, rfl⟩ := Nat.exists_eq_add_of_lt high
  rw [show 2 + m + 1 = m + 3 by omega]
  rfl

theorem ownGuard_range {f : Frame} {s : State} (high : 2 < f.param 0) : ownGuard f s = s.answer .range := by
  rw [ownGuard, guardOf_none high]

theorem ownGuard_protect {f : Frame} {s : State} (test : f.param 0 = 2) (locked : s.cls.unlocked = false) :
    ownGuard f s = s.answer .protect := by
  rw [ownGuard, test]
  simp [guardOf, locked]

theorem ownGuard_taken {f : Frame} {s : State} {level : Word} {g : GuardLevel} (named : f.param 0 = level.toNat)
    (asked : asksGuard level s.cls.unlocked g) : ownGuard f s = (s.changeGuard g).answer .done := by
  rw [ownGuard, named]
  rcases asked with ⟨level, rfl⟩ | ⟨level, rfl⟩ | ⟨level, unlocked, rfl⟩
  · simp [level, guardOf]
  · simp [level, guardOf]
  · simp [level, guardOf, unlocked]

/-- Settles O42, by the tests of R88 and what a change of the level makes of the state (`State.GuardChanged`). -/
theorem guardSetsTheLevel : Obligations.GuardSetsTheLevel := by
  intro after level r s takes params
  have asks : exec (.guard after r) s =
      .next (State.finish (commandFrame 9#8 10#16 r) (ownGuard (commandFrame 9#8 10#16 r) (s.taking after .cycle))) :=
    received_takesCommand takes after ownGuard 9#8 10#16 [1] (by decide) (by decide)
  have port : (commandFrame 9#8 10#16 r).port = .cycle := takes.1
  have named : (commandFrame 9#8 10#16 r).param 0 = level.toNat := by
    change wordAt r.params 0 = _
    rw [params]
    rfl
  refine ⟨fun high => ?_, fun test locked => ?_, fun g asked => ?_⟩
  · rw [asks, ownGuard_range (by rw [named]; exact high)]
    exact finish_justAnswers_nil after _ port .range
  · rw [asks, ownGuard_protect (by rw [named]; exact test) (by exact locked)]
    exact finish_justAnswers_nil after _ port .protect
  have taken : exec (.guard after r) s = .next (State.finish (commandFrame 9#8 10#16 r)
      (((s.taking after .cycle).changeGuard g).answer .done)) := by
    rw [asks, ownGuard_taken named (by exact asked)]
  refine ⟨fun same => ?_, fun other => ?_⟩
  · rw [taken, State.changeGuard_same (by exact same)]
    exact finish_justAnswers_nil after _ port .done
  · have changed := State.changeGuard_guardChanged (g := g) (s := s.taking after .cycle) (by exact other)
    obtain ⟨guard, ceiling, ibe, sensing, -, plan, restartHold, rbt, derives⟩ :=
      changed.answered (commandFrame 9#8 10#16 r) .done
    refine ⟨_, taken, finish_reply _ _ .done [] port, guard, ceiling, ibe, sensing, plan, restartHold, rbt,
      fun running closed hold clear lid bands consistent => derives running closed ?_ bands consistent⟩
    obtain ⟨-, -, -, run, -⟩ := takes
    simp [State.grantForced, State.tripped, hold, clear, lid, run]

/-- The default guard item gives NORMAL or TIGHT (R87). -/
theorem State.defaultGuard_ne_test (s : State) : s.defaultGuard ≠ .test := by
  unfold State.defaultGuard
  split <;> exact GuardLevel.noConfusion

/-- Settles O51: guard TEST changes to the default guard item, which is another (`State.defaultGuard_ne_test`), on the store with
service LOCKED (`State.GuardChanged`). -/
theorem lockEndsService : Obligations.LockEndsService := by
  intro after r s takes
  have asks : exec (.lock after r) s =
      .next (State.finish (commandFrame 10#8 12#16 r) (ownLock (commandFrame 10#8 12#16 r) (s.taking after .cycle))) :=
    received_takesCommand takes after ownLock 10#8 12#16 [0] (by decide) (by decide)
  have port : (commandFrame 10#8 12#16 r).port = .cycle := takes.1
  refine ⟨fun other => ?_, fun test => ?_⟩
  · rw [asks, ownLock, State.lockService, if_neg (by exact other)]
    exact congrArg _ (finish_replying port _ .done)
  · rw [ownLock, State.lockService, if_pos (by exact test)] at asks
    generalize hu : State.changeGuard _ _ = u at asks
    have changed : State.GuardChanged s.defaultGuard
        (State.taking after .cycle { s with cls := { s.cls with unlocked := false } }) u := by
      rw [← hu]
      exact State.changeGuard_guardChanged fun same => State.defaultGuard_ne_test s (same.symm.trans test)
    obtain ⟨guard, ceiling, -, ⟨rtb, csm, tmo, cls, -⟩, part, plan, -⟩ :=
      changed.answered (commandFrame 10#8 12#16 r) .done
    exact ⟨_, asks, finish_reply _ _ .done [] port, cls, guard, ceiling, rtb, csm, tmo, part, plan⟩

end Sys2Proof.Machine
end

section
/-! What the plan of a state must be, field by field (R92, R93, R118), and how an evaluation of the grant, a derivation, a report and a
pause leave it. -/

namespace Sys2Proof.Machine

/-! ### Records and plan states -/

/-- A record is in a state that the plan state allows (Table 6-7). -/
def Plateau.suits (plan : PlanState) (p : Plateau) : Prop :=
  match plan with
  | .empty => False
  | .loaded => p.isQueued = true
  | .running => p.state ≠ .active .held
  | .paused _ => p.isActive = true → p.state = .active .held
  | .complete => p.isOver = true
  | .aborted => p.isOver = true

/-- What Table 6-7 asks of the records: each suits the plan, one is ACTIVE while it is under way, and a LOADED plan has one. -/
theorem recordsFit_iff (plan : PlanState) (ps : List Plateau) : recordsFit plan ps = true ↔
    (∀ p ∈ ps, p.suits plan) ∧ (plan.underway = true → ps.countP Plateau.isActive = 1) ∧ (plan = .loaded → ps ≠ []) := by
  cases plan with
  | empty => simp [recordsFit, Plateau.suits, PlanState.underway, List.eq_nil_iff_forall_not_mem]
  | loaded => simp [recordsFit, Plateau.suits, PlanState.underway, and_comm]
  | running => simp [recordsFit, Plateau.suits, PlanState.underway, and_comm]
  | paused why =>
    have held (p : Plateau) : (p.isActive = false ∨ p.state = .active .held) ↔ (p.isActive = true → p.state = .active .held) := by
      cases p.isActive <;> simp
    simp [recordsFit, Plateau.suits, PlanState.underway, and_comm, held]
  | complete => simp [recordsFit, Plateau.suits, PlanState.underway]
  | aborted => simp [recordsFit, Plateau.suits, PlanState.underway]

/-- While a plan is under way the ACTIVE record alone is bound to a phase. -/
theorem Plateau.suits_of_rest {plan : PlanState} (underway : plan.underway = true) {p : Plateau} (rests : p.isActive = false) :
    p.suits plan := by
  cases plan with
  | running =>
    intro held
    rw [Plateau.isActive, held] at rests
    exact nomatch rests
  | paused why => exact fun active => nomatch active.symm.trans rests
  | empty => exact nomatch underway
  | loaded => exact nomatch underway
  | complete => exact nomatch underway
  | aborted => exact nomatch underway

/-! ### The plan of a state -/

/-- What a derivation needs of the plan: distinct slots below 8, records that suit the plan state, and no derived value left once the
plan runs no more (R92, R93, Table 6-5 note 2). -/
structure State.PlanFits (s : State) : Prop where
  slots : (s.spm.plateaus.map Plateau.slot).Nodup
  below : ∀ p ∈ s.spm.plateaus, p.slot < 8
  suits : ∀ p ∈ s.spm.plateaus, p.suits s.spm.plan
  one : s.spm.plan.underway = true → s.spm.plateaus.countP Plateau.isActive = 1
  filled : s.spm.plan = .loaded → s.spm.plateaus ≠ []
  underived : s.spm.plan ≠ .running → s.spm.derived = none

/-- A plan with a derived value exactly while it is RUNNING. -/
structure State.PlanShaped (s : State) : Prop extends s.PlanFits where
  derived : s.spm.plan = .running → s.spm.derived ≠ none

/-- The conditions under which the dwell tick timer runs (R118). -/
def State.dwells (s : State) : Prop :=
  s.spm.plan = .running ∧ s.activePhase = some .dwelling ∧ s.spm.inWindow = true

/-- A consistent and current plan. -/
structure State.PlanSettled (s : State) : Prop extends s.PlanShaped where
  timer : s.spm.dwellTimer.isSome = true ↔ s.dwells
  rebalance : s.spm.plan = .paused .rebalance → s.grantForced = false → s.spm.grant.speed = s.sdist

theorem State.dwellFits_iff (s : State) : s.dwellFits = true ↔ (s.spm.dwellTimer.isSome = true → s.dwells) := by
  unfold State.dwellFits State.dwells
  cases s.spm.dwellTimer <;> simp [and_assoc]

theorem State.planConsistent_iff (s : State) : s.planConsistent = true ↔
    s.PlanShaped ∧ (s.spm.dwellTimer.isSome = true → s.dwells) := by
  have derived : s.spm.derived.isSome = decide (s.spm.plan = .running) ↔
      (s.spm.plan ≠ .running → s.spm.derived = none) ∧ (s.spm.plan = .running → s.spm.derived ≠ none) := by
    by_cases running : s.spm.plan = .running <;> cases s.spm.derived <;> simp [running]
  simp only [State.planConsistent, Bool.and_eq_true, decide_eq_true_eq, List.all_eq_true, recordsFit_iff, derived,
    State.dwellFits_iff]
  constructor
  · rintro ⟨⟨⟨⟨slots, below⟩, suits, one, filled⟩, underived, runs⟩, dwell⟩
    exact ⟨⟨⟨slots, below, suits, one, filled, underived⟩, runs⟩, dwell⟩
  · rintro ⟨⟨⟨slots, below, suits, one, filled, underived⟩, runs⟩, dwell⟩
    exact ⟨⟨⟨⟨slots, below⟩, suits, one, filled⟩, underived, runs⟩, dwell⟩

theorem State.planCurrent_iff (s : State) : s.planCurrent = true ↔
    (s.spm.plan = .paused .rebalance → s.grantForced = false → s.spm.grant.speed = s.sdist) ∧
      (s.spm.dwellTimer.isSome = true ↔ s.dwells) := by
  unfold State.planCurrent State.dwells
  rw [Bool.and_eq_true, decide_eq_true_eq]
  refine and_congr ?_ ?_
  · simp only [Bool.or_eq_true, decide_eq_true_eq]
    by_cases paused : s.spm.plan = .paused .rebalance <;> cases s.grantForced <;> simp [paused]
  · rw [Bool.eq_iff_iff]
    simp [and_assoc]

theorem State.PlanSettled.consistent {s : State} (h : s.PlanSettled) : s.planConsistent = true :=
  s.planConsistent_iff.2 ⟨h.toPlanShaped, h.timer.1⟩

theorem State.PlanSettled.current {s : State} (h : s.PlanSettled) : s.planCurrent = true :=
  s.planCurrent_iff.2 ⟨h.rebalance, h.timer⟩

/-- A plan as a reset leaves it. -/
theorem State.planSettled_of_empty {s : State} (plan : s.spm.plan = .empty) (records : s.spm.plateaus = [])
    (derived : s.spm.derived = none) (timer : s.spm.dwellTimer = none) : s.PlanSettled where
  slots := by simp [records]
  below := by simp [records]
  suits := by simp [records]
  one := by simp [plan, PlanState.underway]
  filled := by simp [plan]
  underived _ := derived
  derived := by simp [plan]
  timer := by simp [timer, State.dwells, plan]
  rebalance := by simp [plan]

theorem State.PlanFits.congr {s t : State} (h : s.PlanFits) (plan : t.spm.plan = s.spm.plan)
    (records : t.spm.plateaus = s.spm.plateaus) (derived : t.spm.derived = s.spm.derived) : t.PlanFits := by
  obtain ⟨slots, below, suits, one, filled, underived⟩ := h
  rw [← records] at slots below suits one filled
  rw [← plan] at suits one filled underived
  exact ⟨slots, below, suits, one, filled, derived.symm ▸ underived⟩

theorem State.PlanShaped.congr {s t : State} (h : s.PlanShaped) (plan : t.spm.plan = s.spm.plan)
    (records : t.spm.plateaus = s.spm.plateaus) (derived : t.spm.derived = s.spm.derived) : t.PlanShaped :=
  ⟨h.toPlanFits.congr plan records derived, by rw [plan, derived]; exact h.derived⟩

/-- A plan under way has an ACTIVE record. -/
theorem State.PlanFits.active {s : State} (h : s.PlanFits) (underway : s.spm.plan.underway = true) :
    ∃ p ∈ s.spm.plateaus, p.isActive = true ∧ s.active = some p := by
  have some : s.active ≠ none := fun none => by
    have count := h.one underway
    rw [List.countP_eq_zero.2 fun p mem => List.find?_eq_none.1 none p mem] at count
    exact nomatch count
  obtain ⟨p, found⟩ := Option.ne_none_iff_exists'.1 some
  exact ⟨p, List.mem_of_find?_eq_some found, List.find?_some found, found⟩

/-! ### Changes of the ACTIVE record -/

theorem countP_mapActive {f : Plateau → Plateau} (active : ∀ p, p.isActive = true → (f p).isActive = true)
    (ps : List Plateau) : (mapActive f ps).countP Plateau.isActive = ps.countP Plateau.isActive := by
  rw [mapActive, List.countP_map]
  refine List.countP_congr fun p _ => ?_
  by_cases is : p.isActive = true
  · simp [is, active p is]
  · simp [is]

theorem map_slot_mapActive {f : Plateau → Plateau} (slot : ∀ p, (f p).slot = p.slot) (ps : List Plateau) :
    (mapActive f ps).map Plateau.slot = ps.map Plateau.slot := by
  rw [mapActive, List.map_map]
  refine List.map_congr_left fun p _ => ?_
  by_cases is : p.isActive = true <;> simp [is, slot]

theorem forall_mem_mapActive {f : Plateau → Plateau} {P : Plateau → Prop} {ps : List Plateau}
    (active : ∀ p ∈ ps, p.isActive = true → P (f p)) (rests : ∀ p ∈ ps, p.isActive = false → P p) :
    ∀ q ∈ mapActive f ps, P q := by
  intro q mem
  obtain ⟨p, memp, rfl⟩ := List.mem_map.1 mem
  split
  · next is => exact active p memp is
  · next is => exact rests p memp (Bool.eq_false_iff.2 is)

/-- The ACTIVE record of a plan under way changed, in its slot and to a phase that the plan as it is then allows. -/
theorem State.PlanFits.mapActive {s t : State} (h : s.PlanFits) {f : Plateau → Plateau}
    (records : t.spm.plateaus = mapActive f s.spm.plateaus) (before : s.spm.plan.underway = true)
    (after : t.spm.plan.underway = true) (slot : ∀ p, (f p).slot = p.slot)
    (active : ∀ p, p.isActive = true → (f p).isActive = true)
    (suits : ∀ p ∈ s.spm.plateaus, p.isActive = true → (f p).suits t.spm.plan)
    (underived : t.spm.plan ≠ .running → t.spm.derived = none) : t.PlanFits where
  slots := by rw [records, map_slot_mapActive slot]; exact h.slots
  below := by
    rw [records]
    exact forall_mem_mapActive (fun p mem _ => by rw [slot]; exact h.below p mem) (fun p mem _ => h.below p mem)
  suits := by
    rw [records]
    exact forall_mem_mapActive suits (fun p _ rests => Plateau.suits_of_rest after rests)
  one _ := by rw [records, countP_mapActive active]; exact h.one before
  filled loaded := by
    rw [loaded] at after
    exact nomatch after
  underived := underived

/-- What a record in a state of the same kind suits. -/
theorem Plateau.suits_congr {p q : Plateau} (state : q.state = p.state) (plan : PlanState) : q.suits plan ↔ p.suits plan := by
  unfold Plateau.suits Plateau.isOver Plateau.isQueued Plateau.isActive
  rw [state]

/-- The ACTIVE record of a plan under way changed in all but slot and state. -/
theorem State.PlanFits.updateActive {s : State} (h : s.PlanFits) (underway : s.spm.plan.underway = true)
    {f : Plateau → Plateau} (slot : ∀ p, (f p).slot = p.slot) (state : ∀ p, (f p).state = p.state) :
    (s.updateActive f).PlanFits :=
  h.mapActive rfl underway underway slot (fun p is => by rwa [Plateau.isActive_congr (state p)])
    (fun p mem _ => (Plateau.suits_congr (state p) _).2 (h.suits p mem)) h.underived

/-- The plan RUNNING with its ACTIVE record in a phase other than HELD. -/
theorem State.PlanShaped.phase {s : State} (h : s.PlanShaped) (running : s.spm.plan = .running) {ph : Phase} (moves : ph ≠ .held) :
    (s.updateActive (Plateau.withPhase ph)).PlanShaped := by
  have underway : s.spm.plan.underway = true := by rw [running]; rfl
  refine ⟨h.mapActive rfl underway underway (fun _ => rfl) (fun _ _ => rfl) (fun p _ _ => ?_) h.underived, h.derived⟩
  change Plateau.suits s.spm.plan _
  rw [running]
  exact fun held => moves (PlateauState.active.inj held)

/-! ### Evaluations and derivations -/

/-- Before arrival and dwell, an evaluation is nothing to the plan. -/
theorem State.shown_plan (g : GrantRecord) (old : Nat) (s : State) :
    ((s.putGrant g).speedChanged old).spm.plan = s.spm.plan ∧
      ((s.putGrant g).speedChanged old).spm.plateaus = s.spm.plateaus ∧
      ((s.putGrant g).speedChanged old).spm.derived = s.spm.derived := by
  unfold State.speedChanged State.putGrant
  split_ifs <;> exact ⟨rfl, rfl, rfl⟩

theorem State.PlanShaped.arriveAtZero {s : State} (h : s.PlanShaped) : s.arriveAtZero.PlanShaped := by
  unfold State.arriveAtZero
  split
  · next arrived =>
    simp only [Bool.and_eq_true, decide_eq_true_eq] at arrived
    exact h.phase arrived.1.1.1 (by decide)
  · exact h

/-- The dwell tick timer runs exactly while its conditions hold (R118). -/
theorem State.syncDwell_timer (s : State) : s.syncDwell.spm.dwellTimer.isSome = true ↔ s.syncDwell.dwells := by
  have conditions : s.syncDwell.dwells ↔ s.dwells := Iff.rfl
  rw [conditions]
  unfold State.syncDwell State.dwells
  dsimp only
  split
  · next runs =>
    simp only [Bool.and_eq_true, decide_eq_true_eq] at runs
    simpa [State.timerFor, and_assoc] using runs
  · next rests => simpa [and_assoc] using rests

/-- The grant speed of REBALANCE (R113, R119). -/
theorem State.grantSpeed_rebalance {s : State} (paused : s.spm.plan = .paused .rebalance) (unforced : s.grantForced = false)
    (want : Nat) : s.grantSpeed want = s.sdist := by
  rw [State.grantSpeed, unforced, paused]
  rfl

/-- Every evaluation of the grant settles the plan. -/
theorem State.PlanShaped.evaluateGrant {s : State} (h : s.PlanShaped) (want : Nat) : (s.evaluateGrant want).PlanSettled := by
  obtain ⟨plan, records, derived⟩ := s.shown_plan (s.grantRecord want) s.spm.grant.speed
  have arrived := (h.congr plan records derived).arriveAtZero
  have op := s.evaluateGrant_planOp want
  refine ⟨arrived.congr rfl rfl rfl, State.syncDwell_timer _, fun paused unforced => ?_⟩
  rw [(s.evaluateGrant_rest want).1] at paused
  rw [op.grantForced (by simp)] at unforced
  rw [State.evaluateGrant_speed, State.grantSpeed_rebalance paused unforced,
    State.sdist_congr (s := s) (t := s.evaluateGrant want) (by simp)]

/-- A plan under way may be PAUSED (R93, R113, R120). -/
theorem State.PlanFits.pausePlan {s : State} (h : s.PlanFits) (underway : s.spm.plan.underway = true) (r : PauseReason) :
    (s.pausePlan r).PlanShaped :=
  ⟨h.mapActive rfl underway rfl (fun _ => rfl) (fun _ _ => rfl) (fun _ _ _ _ => rfl) (fun _ => rfl), nofun⟩

/-- Every derivation settles the plan, with a derived value where it leaves it RUNNING (R110 to R115). -/
theorem State.PlanFits.derive {s : State} (h : s.PlanFits) (k : DerivationKind) : (s.derive k).PlanSettled := by
  by_cases running : s.spm.plan = .running
  · have underway : s.spm.plan.underway = true := by rw [running]; rfl
    obtain ⟨p, -, -, active⟩ := h.active underway
    have flagged : (s.updateActive (Plateau.flagged (s.derivation p))).PlanFits :=
      h.updateActive underway (fun _ => rfl) (fun _ => rfl)
    cases value : (s.derivation p).value with
    | none =>
      rw [State.derive_none running active k value]
      have told : (State.post .rebalance (s.updateActive (Plateau.flagged (s.derivation p)))).PlanFits := flagged.congr rfl rfl rfl
      exact (told.pausePlan underway .rebalance).evaluateGrant 0
    | some v =>
      have derived : (s.withDerived p v).PlanShaped :=
        ⟨⟨flagged.slots, flagged.below, flagged.suits, flagged.one, flagged.filled, fun rests => absurd running rests⟩, nofun⟩
      have evaluated : ∃ want, s.derive k = (s.withDerived p v).evaluateGrant want := by
        simp only [State.derive, running, active, value]
        cases k <;> exact ⟨_, rfl⟩
      obtain ⟨want, is⟩ := evaluated
      rw [is]
      exact derived.evaluateGrant want
  · rw [State.derive_idle k running]
    exact State.PlanShaped.evaluateGrant ⟨h, fun runs => absurd runs running⟩ _

end Sys2Proof.Machine
end

section
/-! The way from the operations of the blocks to the commands, once for every relation between the states before and after a step: a
relation that the operations named in `StepRelation` keep is kept by every command. -/

namespace Sys2Proof.Machine

/-! ### What a step relation is -/

/-- No block has moved: all that may differ is time, resets, pins, debounce timers, CSM and IBE, the slots of a revolution, the ports, their
notices and the attention of the drive. -/
structure State.Unmoved (s t : State) : Prop where
  measured : t.rtb.measured = s.rtb.measured
  atRest : t.rtb.atRest = s.rtb.atRest
  lastCompletion : t.rtb.lastCompletion = s.rtb.lastCompletion
  rbt : t.rbt = s.rbt
  spm : t.spm = s.spm
  ric : t.ric = s.ric
  first : t.tmo.first = s.tmo.first
  causes : t.tmo.causes = s.tmo.causes
  lid : t.tmo.lid = s.tmo.lid
  cls : t.cls = s.cls
  part : t.lkp.part = s.lkp.part

theorem State.Unmoved.refl (s : State) : s.Unmoved s := ⟨rfl, rfl, rfl, rfl, rfl, rfl, rfl, rfl, rfl, rfl, rfl⟩

theorem State.unmoved_of_frame {s t : State} (frame : t.rtb = s.rtb ∧ t.rbt = s.rbt ∧ t.spm = s.spm ∧ t.ric = s.ric ∧
    t.tmo = s.tmo ∧ t.cls = s.cls ∧ t.lkp.part = s.lkp.part) : s.Unmoved t := by
  obtain ⟨rtb, rbt, spm, ric, tmo, cls, part⟩ := frame
  exact ⟨by rw [rtb], by rw [rtb], by rw [rtb], rbt, spm, ric, by rw [tmo], by rw [tmo], by rw [tmo], cls, part⟩

/-- A relation that composes, holds where no block has moved, and is kept by the operations that move one. -/
structure StepRelation (R : State → State → Prop) : Prop where
  after : ∀ {s t u : State}, R t u → R s t → R s u
  unmoved : ∀ {s t : State}, s.Unmoved t → R s t
  beginReset : ∀ (powerOn : Bool) (reached : Nat) (rst : ResetControl) (s : State), R s (s.beginReset powerOn reached rst)
  endReset : ∀ s : State, R s s.endReset
  setPart : ∀ (p : PartState) (s : State), R s (s.setPart p)
  findCause : ∀ (c : Cause) (s : State), R s (s.findCause c)
  lidSettles : ∀ s : State, R s s.lidSettles
  indexEdge : ∀ (rising : Bool) (order : List Taker) (s : State), R s (s.indexEdge rising order)
  standstill : ∀ (order : List Taker) (s : State), R s (s.standstill order)
  dwellTick : ∀ s : State, s.spm.dwellTimer ≠ none → R s s.dwellTick
  openWindow : ∀ (w : Window) (s : State), R s (s.openWindow w)
  closeOpening : ∀ (o : Opening) (s : State), R s (s.closeOpening o)
  bleedTick : ∀ s : State, R s s.bleedTick
  chambersKnown : ∀ s : State, R s s.chambersKnown
  programmingDone : ∀ s : State, R s s.programmingDone
  owner : ∀ (f : Frame) (s : State), f.kind ≠ 1#8 → R s (ownerOf f f s).state

/-! ### Lookups -/

theorem State.withSlot_unmoved {s : State} {g : Plateau → Reply} (unmoved : ∀ p, s.Unmoved (g p).state) (slot : Nat) :
    s.Unmoved (s.withSlot slot g).state := by
  unfold State.withSlot
  split
  · exact .refl s
  · split
    · exact .refl s
    · exact unmoved _

theorem State.withBand_unmoved {s : State} {g : Band → Reply} (unmoved : ∀ b, s.Unmoved (g b).state) (id : Nat) :
    s.Unmoved (s.withBand id g).state := by
  unfold State.withBand
  split
  · exact .refl s
  · split
    · exact .refl s
    · exact unmoved _

theorem ownLookupGrant_unmoved (f : Frame) (s : State) : s.Unmoved (ownLookupGrant f s).state := by
  change s.Unmoved (if f.port = .drive then { s with lkp := { s.lkp with driveAtn := false } } else s)
  split
  · exact State.unmoved_of_frame (by simp)
  · exact .refl s

theorem ownLookupEstimate_unmoved (f : Frame) (s : State) : s.Unmoved (ownLookupEstimate f s).state := by
  unfold ownLookupEstimate
  split <;> exact .refl s

theorem ownLookupEstimateDelayed_unmoved (f : Frame) (s : State) : s.Unmoved (ownLookupEstimateDelayed f s).state := by
  unfold ownLookupEstimateDelayed State.delayedLookup
  dsimp only
  split
  · split
    · exact State.unmoved_of_frame (by simp)
    · exact .refl s
    · exact .refl s
  · split
    · exact .refl s
    · split
      · exact State.unmoved_of_frame (by simp)
      · exact .refl s
      · exact .refl s

theorem ownLookupQueue_unmoved (f : Frame) (s : State) : s.Unmoved (ownLookupQueue f s).state := by
  unfold ownLookupQueue
  split
  · exact .refl s
  · split
    · exact .refl s
    · split <;> exact .refl s

theorem ownLookupStatus_unmoved (f : Frame) (s : State) : s.Unmoved (ownLookupStatus f s).state := by
  unfold ownLookupStatus
  dsimp only
  split
  · exact State.unmoved_of_frame (by simp)
  · exact .refl s

theorem ownLookupCal_unmoved (f : Frame) (s : State) : s.Unmoved (ownLookupCal f s).state := by
  unfold ownLookupCal
  split
  · exact .refl s
  · split <;> exact .refl s

/-- An owner that moves no block. -/
def Owner.unmoving (own : Owner) : Prop := ∀ (g : Frame) (s : State), s.Unmoved (own g s).state

/-- A LOOKUP changes the link and the latch of the estimate alone. -/
theorem lookupOwner_unmoving (f : Frame) : Owner.unmoving (lookupOwner f) := by
  unfold lookupOwner
  split
  · exact fun _ s => .refl s
  · exact fun _ s => State.withSlot_unmoved (fun _ => .refl s) _
  · exact ownLookupGrant_unmoved
  · split
    · exact ownLookupEstimateDelayed_unmoved
    · exact ownLookupEstimate_unmoved
  · exact fun _ s => State.withBand_unmoved (fun _ => .refl s) _
  · intro g s
    unfold ownLookupChamber
    split <;> exact .refl s
  · exact ownLookupQueue_unmoved
  · exact fun _ s => .refl s
  · exact ownLookupStatus_unmoved
  · exact ownLookupCal_unmoved
  · exact fun _ s => .refl s

namespace StepRelation

section

variable {R : State → State → Prop} (h : StepRelation R)
include h

theorem refl (s : State) : R s s := h.unmoved (.refl s)

/-- Ports, timers of the link, time and notices are nothing to the relation. -/
theorem frame {s t : State} (frame : t.rtb = s.rtb ∧ t.rbt = s.rbt ∧ t.spm = s.spm ∧ t.ric = s.ric ∧ t.tmo = s.tmo ∧
    t.cls = s.cls ∧ t.lkp.part = s.lkp.part) : R s t := h.unmoved (State.unmoved_of_frame frame)

theorem setPort (p : Port) (v : PortState) (s : State) : R s (s.setPort p v) := h.frame (by simp [State.setPort_lkp])

theorem post (n : Notice) (s : State) : R s (s.post n) := h.frame (by simp [State.post])

theorem elapse (n : Nat) (s : State) : R s (s.elapse n) := h.frame (by simp)

theorem waits (n : Nat) (s : State) : R s { s with time := n } := h.frame (by simp)

/-! ### Part state and pins -/

theorem cancelQuiet (s : State) : R s s.cancelQuiet := h.after (h.setPart _ _) (h.frame (by simp))

theorem wakeSource (isFrame : Bool) (s : State) : R s (s.wakeSource isFrame) := by
  have posts (t : State) : R t (if isFrame then t else t.post .wake) := by
    split
    · exact h.refl t
    · exact h.post _ t
  unfold State.wakeSource
  dsimp only
  split
  · exact h.after (posts _) (h.after (h.setPart _ _) (h.frame (by simp)))
  · exact posts s
  · exact h.refl s
  · exact h.refl s
  · exact h.refl s

theorem strikeSettles (s : State) : R s s.strikeSettles := by
  have settles : R s { s with tmo := { s.tmo with strike := s.strikePin, strikeTimer := none } } :=
    h.unmoved ⟨rfl, rfl, rfl, rfl, rfl, rfl, rfl, rfl, rfl, rfl, rfl⟩
  unfold State.strikeSettles
  dsimp only
  split
  · exact h.after (h.wakeSource _ _) (h.after (h.findCause _ _) settles)
  · exact settles

theorem staticSample (codes : Four Code) (s : State) : R s (s.staticSample codes) := by
  have samples (c : Csm) : R s (State.recomputeSag { s with csm := c }) := h.frame (by simp)
  have watches (u : State) : R u u.watchSag := by
    have refers (c : Csm) : R u { u with csm := c } := h.frame (by simp)
    unfold State.watchSag
    split
    · exact h.refl u
    · exact refers _
    · split
      · exact h.after (h.wakeSource _ _) (refers _)
      · exact h.refl u
  unfold State.staticSample
  dsimp only
  split
  · exact h.after (watches _) (samples _)
  · exact samples _

/-! ### A frame's way to its owner -/

theorem takes (f : Frame) (s : State) : R s (ownerOf f f s).state := by
  by_cases lookup : f.kind = 1#8
  · have owns : ownerOf f = lookupOwner f := by
      unfold ownerOf
      rw [lookup]
      rfl
    rw [owns]
    exact h.unmoved (lookupOwner_unmoving f f s)
  · exact h.owner f s lookup

section

variable {own : Owner} {f : Frame} (owns : ∀ s, R s (own f s).state)
include owns

theorem examine (s : State) : R s (s.examine own f).state := by
  unfold State.examine
  split
  · exact h.refl s
  · split
    · exact h.refl s
    · exact owns s

omit owns in
theorem cancelledBy (f : Frame) (s : State) : R s (s.cancelledBy f) := by
  unfold State.cancelledBy
  split
  · exact h.cancelQuiet s
  · exact h.refl s

theorem dealAddressed (s : State) : R s (s.dealAddressed own f).state := by
  unfold State.dealAddressed
  split
  · exact h.refl s
  · split
    · exact owns s
    · exact h.wakeSource true s
  · split
    · exact owns s
    · exact h.refl s
  · split
    · exact owns s
    · exact h.after (h.examine owns _) (h.cancelledBy f s)
  · exact h.examine owns s

theorem dealBroadcast (s : State) : R s (s.dealBroadcast own f) := by
  unfold State.dealBroadcast
  split
  · exact h.refl s
  · exact h.wakeSource true s
  · exact h.refl s
  · dsimp only
    split
    · exact h.after (owns _) (h.cancelledBy f s)
    · exact h.cancelledBy f s
  · split
    · exact owns s
    · exact h.refl s

omit owns in
theorem receiveBusy (f : Frame) (s : State) : R s (s.receiveBusy f) := by
  unfold State.receiveBusy
  split
  · exact h.wakeSource true s
  · exact h.refl s

theorem deliver (s : State) : R s (s.deliver own f) := by
  have clears : R s (s.clearRx f.port) := h.setPort _ _ s
  unfold State.deliver
  dsimp only
  split
  · exact clears
  · refine h.after ?_ clears
    unfold State.receiveBroadcast
    split
    · exact h.dealBroadcast owns _
    · exact h.receiveBusy f _
  · refine h.after ?_ clears
    unfold State.receiveAddressed
    dsimp only
    split
    · exact h.after (h.setPort _ _ _) (h.dealAddressed owns _)
    · split
      · exact h.after (h.setPort _ _ _) (h.receiveBusy f _)
      · exact h.receiveBusy f _

end

/-! ### Characters, gaps and answers -/

theorem takeByte (p : Port) (bs : List Byte) (s : State) : R s (s.takeByte ownerOf p bs) := by
  have receives (r : Rx) : R s (s.setRx p r) := h.setPort _ _ s
  unfold State.takeByte
  split
  · exact receives _
  · split
    · dsimp only
      split
      · exact h.after (h.deliver (h.takes _) _) (receives _)
      · exact receives _
    · exact receives _

theorem takeCharacter (p : Port) (b : Byte) (stopBit : Bool) (s : State) : R s (s.takeCharacter ownerOf p b stopBit) := by
  unfold State.takeCharacter
  dsimp only
  split
  · exact h.setPort _ _ s
  · split
    · exact h.takeByte p _ s
    · exact h.setPort _ _ s

theorem gapTimeout (p : Port) (s : State) : R s (s.gapTimeout p) := by
  unfold State.gapTimeout
  dsimp only
  split
  · exact h.refl s
  · exact h.after (h.setPort _ _ _) (h.waits _ s)

theorem answerSent (p : Port) (s : State) : R s (s.answerSent p) := by
  unfold State.answerSent
  split
  · exact h.refl s
  · split
    · exact h.refl s
    · split
      · exact h.beginReset _ _ _ s
      · exact h.setPort _ _ s

end

end StepRelation

/-! ### Commands -/

/-- An outcome is a next state in the relation to `s`. -/
def nextIn (R : State → State → Prop) (s : State) (o : Host.Outcome State Fault Refusal) : Prop := ∃ t, o = .next t ∧ R s t

theorem nextIn_next {R : State → State → Prop} {s t : State} (h : R s t) : nextIn R s (.next t) := ⟨t, rfl, h⟩

namespace StepRelation

variable {R : State → State → Prop} (h : StepRelation R)
include h

theorem received {own : Owner} {f : Frame} (owns : ∀ s, R s (own f s).state) (after : Nat) (s : State) :
    nextIn R s (received after own f s) :=
  nextIn_next (h.after (h.deliver owns _) (h.elapse after s))

theorem fromOutside {f : State → State} (keeps : ∀ u : State, R u (f u)) (after : Nat) (s : State) :
    nextIn R s (fromOutside after f s) := by
  refine nextIn_next ?_
  split
  · exact h.elapse after s
  · exact h.after (keeps _) (h.elapse after s)

theorem onExpiry {f : State → State} {timer : Option Nat} {s : State}
    (keeps : timer ≠ none → ∀ n : Nat, R { s with time := n } (f { s with time := n })) : nextIn R s (onExpiry timer f s) := by
  unfold Machine.onExpiry
  split
  · exact nextIn_next (h.refl s)
  · refine nextIn_next ?_
    split
    · exact h.refl s
    · exact h.after (keeps nofun _) (h.waits _ s)

/-- A reset goes on in another way, or ends. -/
theorem endsReset (s : State) (n : Nat) (rst : ResetControl) (goesOn : Bool) :
    R s (if goesOn then { s with time := n, rst := rst } else State.endReset { s with time := n, rst := rst }) := by
  have changed : R s { s with time := n, rst := rst } := h.frame (by simp)
  split
  · exact changed
  · exact h.after (h.endReset _) changed

theorem execResetNNegated (after : Nat) (s : State) : nextIn R s (execResetNNegated after s) := by
  refine nextIn_next (h.after ?_ (h.elapse after s))
  generalize s.elapse after = t
  split
  · exact h.refl t
  · split
    · exact h.frame (by simp)
    · exact h.endReset t

theorem execResetTimerExpiry (s : State) : nextIn R s (execResetTimerExpiry s) := by
  unfold Machine.execResetTimerExpiry
  split
  · exact nextIn_next (h.refl s)
  · exact nextIn_next (h.endsReset s _ { s.rst with timer := none } s.rst.resetN)

theorem execSlotEvent (codes : Four Code) (s : State) : nextIn R s (execSlotEvent codes s) := by
  unfold Machine.execSlotEvent
  split
  · exact nextIn_next (h.refl s)
  · next k due _ =>
    have advances (u : State) (r : Revolution) : R u { u with rtb := { u.rtb with revolution := r } } :=
      h.unmoved ⟨rfl, rfl, rfl, rfl, rfl, rfl, rfl, rfl, rfl, rfl, rfl⟩
    have converts (u : State) : R u (u.convertSlot k codes) := h.frame (by simp)
    exact nextIn_next (h.after (converts _) (h.after (advances _ _) (h.elapse _ s)))

/-- A pin's change goes to TMO's debounce timers alone (R151, R160). -/
theorem pinChange {s t : State} (pins : R s t) {v : Tmo} (first : v.first = t.tmo.first) (causes : v.causes = t.tmo.causes)
    (lid : v.lid = t.tmo.lid) : nextIn R s (.next (if t.inReset then t else { t with tmo := v })) := by
  refine nextIn_next ?_
  split
  · exact pins
  · exact h.after (h.unmoved (s := t) ⟨rfl, rfl, rfl, rfl, rfl, rfl, first, causes, lid, rfl, rfl⟩) pins

theorem execResetNAsserted (after reached : Nat) (s : State) : nextIn R s (execResetNAsserted after reached s) := by
  refine nextIn_next (h.after ?_ (h.elapse after s))
  split
  · exact h.refl _
  · exact h.beginReset _ _ _ _

theorem execOpenInstant (chamber : Fin 4) (s : State) : nextIn R s (execOpenInstant chamber s) := by
  unfold Machine.execOpenInstant
  split
  · exact nextIn_next (h.refl s)
  · exact nextIn_next (h.after (h.openWindow _ _) (h.elapse _ s))

theorem execCloseInstant (s : State) : nextIn R s (execCloseInstant s) := by
  unfold Machine.execCloseInstant
  split
  · exact nextIn_next (h.refl s)
  · exact nextIn_next (h.after (h.closeOpening _ _) (h.elapse _ s))

theorem execGiveUpTimerExpiry (s : State) : nextIn R s (execGiveUpTimerExpiry s) := by
  unfold Machine.execGiveUpTimerExpiry
  split
  · exact h.onExpiry fun _ n => h.frame (by simp [(State.latchReady_calm _ _ _ _).part])
  · exact nextIn_next (h.refl s)
  · exact nextIn_next (h.refl s)

theorem execDiscardTimerExpiry (s : State) : nextIn R s (execDiscardTimerExpiry s) := by
  unfold Machine.execDiscardTimerExpiry
  split
  · exact h.onExpiry fun _ n => h.frame (by simp [(State.discardLatch_calm _).part])
  · exact nextIn_next (h.refl s)
  · exact nextIn_next (h.refl s)

theorem execEndOfStartUp (s : State) : nextIn R s (execEndOfStartUp s) := by
  refine h.onExpiry fun _ n => ?_
  have started : R { s with time := n } (State.setPart .run { s with time := n, startUp := none }) :=
    h.after (h.setPart _ _) (h.frame (by simp))
  exact h.after (h.post .restart _) started

theorem execIndexOverdue (s : State) : nextIn R s (execIndexOverdue s) := by
  refine h.onExpiry fun _ n => ?_
  have stops : R { s with time := n } { s with time := n, rtb := { s.rtb with overdue := none } } :=
    h.unmoved ⟨rfl, rfl, rfl, rfl, rfl, rfl, rfl, rfl, rfl, rfl, rfl⟩
  exact h.after (h.findCause .tachLost _) stops

theorem execQuietCountdownExpiry (s : State) : nextIn R s (execQuietCountdownExpiry s) := by
  refine h.onExpiry fun _ n => ?_
  have stops : R { s with time := n } { s with time := n, lkp := { s.lkp with quietTimer := none } } := h.frame (by simp)
  exact h.after (h.setPart .quiet _) stops

theorem execWakeTimerExpiry (s : State) : nextIn R s (execWakeTimerExpiry s) := by
  refine h.onExpiry fun _ n => ?_
  have stops : R { s with time := n } { s with time := n, lkp := { s.lkp with wakeTimer := none } } := h.frame (by simp)
  exact h.after (h.post .wake _) (h.after (h.setPart .run _) stops)

/-- A request row of the table, but for the two of ESTIMATE, is the receipt of its frame by the owner that its kind, class and key
name. -/
theorem requestRow {i : Instr} {after : Nat} {f : Frame} {s : State} (_ : requestFrame i = some (after, f))
    (row : Machine.exec i s = Machine.received after (ownerOf f) f s) : nextIn R s (Machine.exec i s) := by
  rw [row]
  exact h.received (h.takes f) after s

theorem exec (c : Instr) (s : State) : nextIn R s (exec c s) := by
  cases c with
  | powerOn after reached => exact nextIn_next (h.after (h.beginReset _ _ _ _) (h.elapse after s))
  | resetNAsserted after reached => exact h.execResetNAsserted after reached s
  | resetNNegated after => exact h.execResetNNegated after s
  | resetTimerExpiry => exact h.execResetTimerExpiry s
  | endOfStartUp => exact h.execEndOfStartUp s
  | indexEdge after rising order => exact h.fromOutside (h.indexEdge rising order) after s
  | slotEvent codes => exact h.execSlotEvent codes s
  | restTimerExpiry order => exact h.onExpiry fun _ _ => h.standstill order _
  | indexOverdue => exact h.execIndexOverdue s
  | staticTimerExpiry codes => exact h.onExpiry fun _ _ => h.staticSample codes _
  | giveUpTimerExpiry => exact h.execGiveUpTimerExpiry s
  | discardTimerExpiry => exact h.execDiscardTimerExpiry s
  | dwellTick => exact h.onExpiry fun runs _ => h.dwellTick _ runs
  | openInstant chamber => exact h.execOpenInstant chamber s
  | closeInstant => exact h.execCloseInstant s
  | bleedTick => exact h.onExpiry fun _ _ => h.bleedTick _
  | unknownTimerExpiry => exact h.onExpiry fun _ _ => h.chambersKnown _
  | strikePinChange after level =>
    exact h.pinChange (t := { s.elapse after with strikePin := level }) (h.frame (by simp)) rfl rfl rfl
  | strikeDebounceExpiry => exact h.onExpiry fun _ _ => h.strikeSettles _
  | lidlkPinChange after level =>
    exact h.pinChange (t := { s.elapse after with lidPin := level }) (h.frame (by simp)) rfl rfl rfl
  | lidDebounceExpiry => exact h.onExpiry fun _ _ => h.lidSettles _
  | frameGapTimeout port => exact nextIn_next (h.gapTimeout port s)
  | answerSent after port => exact nextIn_next (h.after (h.answerSent port _) (h.elapse after s))
  | quietCountdownExpiry => exact h.execQuietCountdownExpiry s
  | wakeTimerExpiry => exact h.execWakeTimerExpiry s
  | programmingDone after => exact h.fromOutside h.programmingDone after s
  | characterReceived after port byte stopBit =>
    exact nextIn_next (h.after (h.takeCharacter port byte stopBit _) (h.elapse after s))
  | lookupEstimate after r => exact h.received (fun u => h.unmoved (ownLookupEstimate_unmoved _ u)) after s
  | lookupEstimateDelayed after r => exact h.received (fun u => h.unmoved (ownLookupEstimateDelayed_unmoved _ u)) after s
  | _ => exact h.requestRow rfl rfl

/-- Every step is in a step relation. -/
theorem step (s : State) : nextIn R s (step s) := by
  unfold Machine.step
  split
  · exact nextIn_next (h.elapse 1 s)
  · next c rest _ =>
    obtain ⟨t, runs, related⟩ := h.exec c { s with pending := rest }
    exact ⟨t, runs, h.after related (h.frame (by simp))⟩

end StepRelation

end Sys2Proof.Machine
end

section
/-! The plan over the operations of SPM, the part state, trips, the lid, updates and the guard level (R92, R93, R118). -/

namespace Sys2Proof.Machine

/-! ### What keeps the plan -/

/-- An operation keeps a plan consistent, and a consistent plan current. -/
def State.KeepsPlan (s t : State) : Prop :=
  s.planConsistent = true → t.planConsistent = true ∧ (s.planCurrent = true → t.planCurrent = true)

theorem State.planSettled_iff (s : State) : s.PlanSettled ↔ s.planConsistent = true ∧ s.planCurrent = true := by
  refine ⟨fun h => ⟨h.consistent, h.current⟩, fun ⟨consistent, current⟩ => ?_⟩
  obtain ⟨rebalance, timer⟩ := s.planCurrent_iff.1 current
  exact ⟨(s.planConsistent_iff.1 consistent).1, timer, rebalance⟩

theorem State.shaped_of_consistent {s : State} (h : s.planConsistent = true) : s.PlanShaped := (s.planConsistent_iff.1 h).1

theorem State.KeepsPlan.refl (s : State) : s.KeepsPlan s := fun consistent => ⟨consistent, id⟩

theorem State.KeepsPlan.after {s t u : State} (k : t.KeepsPlan u) (h : s.KeepsPlan t) : s.KeepsPlan u := by
  intro consistent
  obtain ⟨consistentT, current⟩ := h consistent
  obtain ⟨consistentU, currentU⟩ := k consistentT
  exact ⟨consistentU, fun before => currentU (current before)⟩

/-- An operation that settles the plan keeps it. -/
theorem State.keepsPlan_of_settled {s t : State} (h : s.PlanShaped → t.PlanSettled) : s.KeepsPlan t := by
  intro consistent
  have settled := h (State.shaped_of_consistent consistent)
  exact ⟨settled.consistent, fun _ => settled.current⟩

theorem State.KeepsPlan.settled {s t : State} (k : s.KeepsPlan t) (h : s.PlanSettled) : t.PlanSettled := by
  obtain ⟨consistent, current⟩ := k h.consistent
  exact t.planSettled_iff.2 ⟨consistent, current h.current⟩

/-- Everything that a consistent and current plan is read from is as before. -/
structure State.SameRun (s t : State) : Prop where
  plan : t.spm.plan = s.spm.plan
  plateaus : t.spm.plateaus = s.spm.plateaus
  derived : t.spm.derived = s.spm.derived
  dwellTimer : t.spm.dwellTimer = s.spm.dwellTimer
  inWindow : t.spm.inWindow = s.spm.inWindow
  speed : t.spm.grant.speed = s.spm.grant.speed
  forced : t.grantForced = s.grantForced
  sdist : t.sdist = s.sdist

theorem State.SameRun.dwells {s t : State} (h : s.SameRun t) : t.dwells ↔ s.dwells := by
  have phase : t.activePhase = s.activePhase := by
    unfold State.activePhase State.active
    rw [h.plateaus]
  unfold State.dwells
  rw [h.plan, phase, h.inWindow]

theorem State.SameRun.keeps {s t : State} (h : s.SameRun t) : s.KeepsPlan t := by
  intro consistent
  obtain ⟨shaped, timer⟩ := s.planConsistent_iff.1 consistent
  refine ⟨t.planConsistent_iff.2 ⟨shaped.congr h.plan h.plateaus h.derived, ?_⟩, fun current => t.planCurrent_iff.2 ?_⟩
  · rwa [h.dwellTimer, h.dwells]
  · rw [h.plan, h.forced, h.speed, h.sdist, h.dwellTimer, h.dwells]
    exact s.planCurrent_iff.1 current

theorem State.sameRun_of_frame {s t : State} (frame : t.spm = s.spm ∧ t.tmo.first = s.tmo.first ∧ t.tmo.lid = s.tmo.lid ∧
    t.cls = s.cls ∧ t.lkp.part = s.lkp.part) : s.SameRun t := by
  obtain ⟨spm, first, lid, cls, part⟩ := frame
  refine ⟨by rw [spm], by rw [spm], by rw [spm], by rw [spm], by rw [spm], by rw [spm], ?_, State.sdist_congr cls⟩
  unfold State.grantForced State.tripped
  rw [spm, first, lid, part]

/-- Time, pins, CSM, IBE, the bands and the ring are nothing to the plan. -/
theorem State.keepsPlan_of_frame {s t : State} (frame : t.spm = s.spm ∧ t.tmo.first = s.tmo.first ∧ t.tmo.lid = s.tmo.lid ∧
    t.cls = s.cls ∧ t.lkp.part = s.lkp.part) : s.KeepsPlan t := (State.sameRun_of_frame frame).keeps

/-- A plan as the derivation needs it, of which the operation has left plan state, records and derived value. -/
theorem State.PlanFits.of_spm {s t : State} (h : s.PlanFits) (spm : t.spm = s.spm) : t.PlanFits :=
  h.congr (by rw [spm]) (by rw [spm]) (by rw [spm])

theorem State.PlanShaped.of_spm {s t : State} (h : s.PlanShaped) (spm : t.spm = s.spm) : t.PlanShaped :=
  h.congr (by rw [spm]) (by rw [spm]) (by rw [spm])

/-! ### Ceilings, reports and bands -/

theorem State.PlanFits.ceilingAndGrant {s : State} (h : s.PlanFits) : s.ceilingAndGrant.PlanSettled :=
  State.PlanFits.derive (h.congr (t := s.computeCeiling) rfl rfl rfl) .held

theorem State.PlanShaped.refreshGrant {s : State} (h : s.PlanShaped) : s.refreshGrant.PlanSettled := h.evaluateGrant _

theorem State.PlanShaped.unforceGrant {s : State} (h : s.PlanShaped) : s.unforceGrant.PlanSettled := by
  unfold State.unforceGrant
  split
  · exact h.refreshGrant
  · exact h.toPlanFits.derive .fresh

theorem State.closeSpan_keepsPlan (s : State) : s.KeepsPlan s.closeSpan := by
  have learns (bs : List Band) : s.KeepsPlan
      ((({ s with rbt := { s.rbt with span := none } } : State).withBands bs).post .bandLearned).ceilingAndGrant :=
    State.keepsPlan_of_settled fun shaped => State.PlanFits.ceilingAndGrant (shaped.toPlanFits.of_spm rfl)
  unfold State.closeSpan
  split
  · exact .refl s
  · dsimp only
    split
    · exact State.keepsPlan_of_frame ⟨rfl, rfl, rfl, rfl, rfl⟩
    · split
      · exact State.keepsPlan_of_frame ⟨rfl, rfl, rfl, rfl, rfl⟩
      · exact learns _
      · exact learns _

theorem State.planReport_keepsPlan (s : State) : s.KeepsPlan s.planReport := by
  have refreezes (u : State) : u.KeepsPlan u.refreeze := State.keepsPlan_of_frame (by simp)
  unfold State.planReport
  split
  · exact refreezes s
  · exact (refreezes _).after s.closeSpan_keepsPlan

theorem State.PlanSettled.report {s : State} (h : s.PlanSettled) : s.planReport.PlanSettled := s.planReport_keepsPlan.settled h

theorem State.PlanShaped.changeBands {s : State} (h : s.PlanShaped) (bs : List Band) : (s.changeBands bs).PlanShaped := by
  unfold State.changeBands
  split
  · exact h
  · exact ((h.toPlanFits.of_spm (t := s.withBands bs) rfl).ceilingAndGrant).report.toPlanShaped

theorem State.changeBands_keepsPlan (bs : List Band) (s : State) : s.KeepsPlan (s.changeBands bs) := by
  unfold State.changeBands
  split
  · exact .refl s
  · exact State.keepsPlan_of_settled fun shaped =>
      ((shaped.toPlanFits.of_spm (t := s.withBands bs) rfl).ceilingAndGrant).report

/-! ### The part state -/

theorem State.setPart_keepsPlan (p : PartState) (s : State) : s.KeepsPlan (s.setPart p) := by
  refine State.keepsPlan_of_settled fun shaped => ?_
  have handed : (s.partHanded p).PlanShaped := shaped.of_spm (s.partHanded_frame p).2
  rw [State.setPart_eq]
  split
  · exact handed.unforceGrant.report
  · exact handed.refreshGrant.report

theorem State.cancelQuiet_keepsPlan (s : State) : s.KeepsPlan s.cancelQuiet :=
  (State.setPart_keepsPlan _ _).after (State.keepsPlan_of_frame ⟨rfl, rfl, rfl, rfl, rfl⟩)

theorem State.wakeSource_keepsPlan (isFrame : Bool) (s : State) : s.KeepsPlan (s.wakeSource isFrame) := by
  have posts (t : State) : t.KeepsPlan (if isFrame then t else t.post .wake) := by
    split
    · exact .refl t
    · exact State.keepsPlan_of_frame ⟨rfl, rfl, rfl, rfl, rfl⟩
  unfold State.wakeSource
  dsimp only
  split
  · exact ((posts _).after (State.setPart_keepsPlan _ _)).after (State.keepsPlan_of_frame ⟨rfl, rfl, rfl, rfl, rfl⟩)
  · exact posts s
  · exact .refl s
  · exact .refl s
  · exact .refl s

theorem State.turningReport_keepsPlan (s : State) : s.KeepsPlan s.turningReport := by
  unfold State.turningReport
  split
  · exact s.cancelQuiet_keepsPlan
  · exact s.wakeSource_keepsPlan _

/-! ### Trips and the lid -/

theorem State.PlanShaped.takePause {s : State} (h : s.PlanShaped) (underway : s.spm.plan.underway = true) (r : PauseReason) :
    (s.takePause r).PlanShaped := by
  unfold State.takePause
  split
  · exact h
  · exact h.toPlanFits.pausePlan underway r

theorem State.PlanShaped.tripPlan {s : State} (h : s.PlanShaped) : s.tripPlan.PlanShaped := by
  unfold State.tripPlan
  split
  · next underway => exact h.takePause underway _
  · exact h

theorem State.PlanShaped.lidPlan {s : State} (h : s.PlanShaped) : s.lidPlan.PlanShaped := by
  unfold State.lidPlan
  split
  · next running => exact h.takePause (by rw [running]; rfl) _
  · next paused => exact h.takePause (by rw [paused]; rfl) _
  · exact h

theorem State.PlanShaped.handTrip {s : State} (h : s.PlanShaped) : s.handTrip.PlanSettled := by
  have reported := h.tripPlan.refreshGrant.report
  unfold State.handTrip
  dsimp only
  split
  · exact (State.cancelQuiet_keepsPlan _).settled reported
  · exact reported

theorem State.findCause_keepsPlan (c : Cause) (s : State) : s.KeepsPlan (s.findCause c) := by
  unfold State.findCause
  split
  · exact State.keepsPlan_of_settled fun shaped => State.PlanShaped.handTrip (shaped.of_spm rfl)
  · split
    · exact .refl s
    · exact State.keepsPlan_of_frame ⟨rfl, rfl, rfl, rfl, rfl⟩

/-- A cause that a test finds, or no cause. -/
theorem State.findsIf_keepsPlan {s t : State} (h : s.KeepsPlan t) (found : Prop) [Decidable found] (c : Cause) :
    s.KeepsPlan (if found then t.findCause c else t) := by
  split
  · exact (t.findCause_keepsPlan c).after h
  · exact h

theorem State.clearTrip_keepsPlan (s : State) : s.KeepsPlan s.clearTrip := by
  refine State.keepsPlan_of_settled fun shaped => State.PlanSettled.report (State.PlanShaped.unforceGrant ?_)
  exact shaped.of_spm rfl

theorem State.lidSettles_keepsPlan (s : State) : s.KeepsPlan s.lidSettles := by
  refine State.keepsPlan_of_settled fun shaped => ?_
  unfold State.lidSettles State.lockLid State.unlockLid
  dsimp only
  split
  · refine State.PlanSettled.report (State.PlanShaped.unforceGrant ?_)
    exact shaped.of_spm rfl
  · refine State.PlanSettled.report (State.PlanShaped.refreshGrant (State.PlanShaped.lidPlan ?_))
    exact shaped.of_spm rfl

/-! ### Updates and the guard level -/

theorem State.PlanFits.giveUpdate {s : State} (h : s.PlanFits) : s.giveUpdate.PlanFits :=
  h.congr (by simp [State.giveUpdate]) (by simp [State.giveUpdate]) (by simp [State.giveUpdate])

theorem State.handUpdate_keepsPlan (s : State) : s.KeepsPlan s.handUpdate :=
  State.keepsPlan_of_settled fun shaped => shaped.toPlanFits.giveUpdate.ceilingAndGrant.report

theorem State.orderServing_keepsPlan (s : State) : s.KeepsPlan s.orderServing := by
  have marks : s.KeepsPlan { s with ibe := { s.ibe with injectionMark := true, settle := 0 } } :=
    State.keepsPlan_of_frame ⟨rfl, rfl, rfl, rfl, rfl⟩
  unfold State.orderServing
  dsimp only
  split
  · exact (State.handUpdate_keepsPlan _).after marks
  · exact marks

theorem State.openWindow_keepsPlan (w : Window) (s : State) : s.KeepsPlan (s.openWindow w) := by
  have ring (r : Ric) : s.KeepsPlan { s with ric := r } := State.keepsPlan_of_frame ⟨rfl, rfl, rfl, rfl, rfl⟩
  unfold State.openWindow
  dsimp only
  split
  · split
    · exact (State.orderServing_keepsPlan _).after (ring _)
    · exact ring _
  · exact ring _

theorem State.changeGuard_keepsPlan (g : GuardLevel) (s : State) : s.KeepsPlan (s.changeGuard g) := by
  unfold State.changeGuard
  split
  · exact .refl s
  · refine State.keepsPlan_of_settled fun shaped => ?_
    have set : State.PlanFits { s with spm := { s.spm with guard := g } } := shaped.toPlanFits.congr rfl rfl rfl
    dsimp only
    split
    · exact set.ceilingAndGrant.report
    · exact set.giveUpdate.ceilingAndGrant.report

/-! ### Completions and standstills -/

theorem State.PlanShaped.testArrival {s : State} (h : s.PlanShaped) (c : Completion) : (s.testArrival c).PlanShaped := by
  have counts (n : Nat) : State.PlanShaped { s with spm := { s.spm with arrival := n } } := h.congr rfl rfl rfl
  unfold State.testArrival
  dsimp only
  split
  · next ramping =>
    simp only [Bool.and_eq_true, decide_eq_true_eq] at ramping
    split
    · split
      · exact counts _
      · exact (h.phase (ph := .dwelling) ramping.1.1.1 (by decide)).congr rfl rfl rfl
    · exact counts 0
  · exact h

/-- What follows an evaluation of the grant at a completion and at a standstill. -/
theorem State.PlanShaped.closes {s : State} (h : s.PlanShaped) : s.testWindow.refreshGrant.planReport.PlanSettled :=
  (State.PlanShaped.refreshGrant (h.congr (t := s.testWindow) rfl rfl rfl)).report

theorem State.planCompletion_keepsPlan (c : Completion) (s : State) : s.KeepsPlan (s.planCompletion c) := by
  refine State.keepsPlan_of_settled fun shaped => ?_
  have taken : s.takeUpdate.PlanFits := shaped.toPlanFits.congr rfl rfl rfl
  exact (taken.ceilingAndGrant.toPlanShaped.testArrival c).closes

theorem State.planStandstill_keepsPlan (s : State) : s.KeepsPlan s.planStandstill := by
  refine State.keepsPlan_of_settled fun shaped => ?_
  have released : (State.takeUpdate { s with spm := { s.spm with restartHold := false } }).PlanShaped :=
    shaped.congr rfl rfl rfl
  refine State.PlanShaped.closes ?_
  split
  · refine (State.PlanShaped.unforceGrant ?_).toPlanShaped
    exact released.congr rfl rfl rfl
  · exact released.toPlanFits.ceilingAndGrant.toPlanShaped

theorem State.learn_keepsPlan (c : Completion) (s : State) : s.KeepsPlan (s.learn c) := by
  unfold State.learn
  split
  · exact s.closeSpan_keepsPlan
  · split
    · exact .refl s
    · dsimp only
      split
      · exact State.keepsPlan_of_frame ⟨rfl, rfl, rfl, rfl, rfl⟩
      · exact s.closeSpan_keepsPlan

theorem State.testOverspeed_keepsPlan (c : Completion) (s : State) : s.KeepsPlan (s.testOverspeed c) := by
  have counts (n : Nat) : s.KeepsPlan { s with tmo := { s.tmo with overspeed := n } } :=
    State.keepsPlan_of_frame ⟨rfl, rfl, rfl, rfl, rfl⟩
  unfold State.testOverspeed
  split
  · exact State.findsIf_keepsPlan (counts _) _ _
  · exact counts 0

theorem State.takeCompletion_keepsPlan (c : Completion) (s : State) (k : Taker) : s.KeepsPlan (s.takeCompletion c k) := by
  cases k with
  | rbt => exact s.learn_keepsPlan c
  | spm => exact s.planCompletion_keepsPlan c
  | ric => exact State.keepsPlan_of_frame (by simp [State.takeCompletion, (s.ringCompletion_calm c).part])
  | orbit => exact State.findsIf_keepsPlan (.refl s) _ _
  | sensors => exact State.findsIf_keepsPlan (.refl s) _ _
  | overspeed => exact s.testOverspeed_keepsPlan c

theorem State.takeStandstill_keepsPlan (s : State) (k : Taker) : s.KeepsPlan (s.takeStandstill k) := by
  cases k with
  | rbt => exact s.closeSpan_keepsPlan
  | spm => exact s.planStandstill_keepsPlan
  | ric => exact State.keepsPlan_of_frame (by simp [State.takeStandstill, s.ringStandstill_calm.part])
  | orbit => exact .refl s
  | sensors => exact .refl s
  | overspeed => exact State.keepsPlan_of_frame ⟨rfl, rfl, rfl, rfl, rfl⟩

/-- Blocks that take an event one after another and all keep the plan. -/
theorem foldl_keepsPlan {take : State → Taker → State} (keeps : ∀ (v : State) (k : Taker), v.KeepsPlan (take v k))
    (ks : List Taker) (s : State) : s.KeepsPlan (ks.foldl take s) := by
  induction ks generalizing s with
  | nil => exact .refl s
  | cons k ks ih => exact (ih _).after (keeps s k)

theorem State.issueCompletion_keepsPlan (p : Nat) (order : List Taker) (s : State) :
    s.KeepsPlan (s.issueCompletion p order) := by
  unfold State.issueCompletion
  dsimp only
  exact (foldl_keepsPlan (State.takeCompletion_keepsPlan _) _ _).after
    (State.keepsPlan_of_frame (by simp [State.estimate_part]))

theorem State.closingEdge_keepsPlan (last : Nat) (order : List Taker) (s : State) :
    s.KeepsPlan (s.closingEdge last order) := by
  have closes (p : Nat) : s.KeepsPlan (s.closeRevolution p) := State.keepsPlan_of_frame ⟨rfl, rfl, rfl, rfl, rfl⟩
  unfold State.closingEdge
  dsimp only
  split
  · exact ((State.issueCompletion_keepsPlan _ _ _).after (State.turningReport_keepsPlan _)).after (closes _)
  · exact (State.issueCompletion_keepsPlan _ _ _).after (closes _)

theorem State.indexEdge_keepsPlan (rising : Bool) (order : List Taker) (s : State) :
    s.KeepsPlan (s.indexEdge rising order) := by
  unfold State.indexEdge
  split
  · split
    · exact State.keepsPlan_of_settled fun shaped => State.PlanShaped.refreshGrant (shaped.of_spm rfl)
    · exact s.closingEdge_keepsPlan _ order
  · exact .refl s

theorem State.standstill_keepsPlan (order : List Taker) (s : State) : s.KeepsPlan (s.standstill order) := by
  unfold State.standstill
  exact (foldl_keepsPlan State.takeStandstill_keepsPlan _ _).after
    (State.keepsPlan_of_frame (by simp [(State.testLatch_calm _).part]))

end Sys2Proof.Machine
end

section
/-! The plan over activation, its requests, the store and the resets, and every step (R92 to R107). -/

namespace Sys2Proof.Machine

/-! ### Activation -/

/-- A plan under way whose plateau has ended, before the next record is ACTIVE (R103). -/
structure State.PlanPending (s : State) : Prop where
  slots : (s.spm.plateaus.map Plateau.slot).Nodup
  below : ∀ p ∈ s.spm.plateaus, p.slot < 8
  rests : ∀ p ∈ s.spm.plateaus, p.isActive = false
  underway : s.spm.plan.underway = true
  underived : s.spm.plan ≠ .running → s.spm.derived = none

theorem map_slot_activateSlot (n : Nat) (ph : Phase) (ps : List Plateau) :
    (activateSlot n ph ps).map Plateau.slot = ps.map Plateau.slot := by
  rw [activateSlot, List.map_map]
  refine List.map_congr_left fun p _ => ?_
  by_cases here : p.slot = n <;> simp [here]

/-- Of records at rest in distinct slots one is ACTIVE once one is activated (R103). -/
theorem countP_activateSlot {ps : List Plateau} {p : Plateau} (slots : (ps.map Plateau.slot).Nodup) (mem : p ∈ ps)
    (rests : ∀ q ∈ ps, q.isActive = false) (ph : Phase) : (activateSlot p.slot ph ps).countP Plateau.isActive = 1 := by
  have here : (ps.map Plateau.slot).count p.slot = 1 := List.count_eq_one_of_mem slots (List.mem_map_of_mem mem)
  rw [List.count_eq_countP, List.countP_map] at here
  rw [activateSlot, List.countP_map, ← here]
  refine List.countP_congr fun q memq => ?_
  by_cases same : q.slot = p.slot
  · simp [same, Plateau.isActive]
  · simp [same, rests q memq]

theorem forall_mem_activateSlot {P : Plateau → Prop} {n : Nat} {ph : Phase} {ps : List Plateau}
    (active : ∀ p ∈ ps, p.slot = n → P { p with state := .active ph, elapsed := some 0 }) (others : ∀ p ∈ ps, P p) :
    ∀ q ∈ activateSlot n ph ps, P q := by
  intro q mem
  obtain ⟨p, memp, rfl⟩ := List.mem_map.1 mem
  split
  · next here => exact active p memp here
  · exact others p memp

/-- The phase in which a record is activated suits the plan: RAMPING in a RUNNING plan, HELD in a PAUSED one (R103). -/
theorem Plateau.suits_activated {plan : PlanState} (underway : plan.underway = true) (p : Plateau) :
    Plateau.suits plan { p with state := .active (if plan = .running then .ramping else .held), elapsed := some 0 } := by
  cases plan with
  | running => exact fun held => nomatch held
  | paused why => exact fun _ => rfl
  | empty => exact nomatch underway
  | loaded => exact nomatch underway
  | complete => exact nomatch underway
  | aborted => exact nomatch underway

theorem State.PlanPending.completePlan {s : State} (h : s.PlanPending) (none : s.spm.plateaus.find? Plateau.isQueued = none) :
    s.completePlan.PlanSettled := by
  refine State.PlanShaped.refreshGrant ⟨⟨h.slots, h.below, fun p mem => ?_, nofun, nofun, fun _ => rfl⟩, nofun⟩
  have queued : p.isQueued = false := Bool.eq_false_iff.2 (List.find?_eq_none.1 none p mem)
  change p.isOver = true
  simp [Plateau.isOver, queued, h.rests p mem]

theorem State.PlanPending.activateNext {s : State} (h : s.PlanPending) : s.activateNext.PlanSettled := by
  unfold State.activateNext
  split
  · next none => exact h.completePlan none
  · next p found =>
    have mem := List.mem_of_find?_eq_some found
    refine State.PlanFits.derive ?_ _
    refine ⟨?_, ?_, ?_, fun _ => ?_, fun loaded => ?_, h.underived⟩
    · exact (map_slot_activateSlot _ _ _).symm ▸ h.slots
    · exact forall_mem_activateSlot (fun q memq _ => h.below q memq) h.below
    · exact forall_mem_activateSlot (fun q _ _ => Plateau.suits_activated h.underway q)
        (fun q memq => Plateau.suits_of_rest h.underway (h.rests q memq))
    · exact countP_activateSlot h.slots mem h.rests _
    · exact nomatch h.underway.symm.trans (congrArg PlanState.underway loaded)

theorem State.PlanFits.endActive {s : State} (h : s.PlanFits) (underway : s.spm.plan.underway = true) {final : PlateauState}
    (ended : ∀ ph, final ≠ .active ph) : (s.endActive final).PlanSettled := by
  refine State.PlanPending.activateNext ⟨?_, ?_, ?_, underway, h.underived⟩
  · exact (map_slot_mapActive (f := fun p => { p with state := final }) (fun _ => rfl) s.spm.plateaus).symm ▸ h.slots
  · exact forall_mem_mapActive (fun p mem _ => h.below p mem) (fun p mem _ => h.below p mem)
  · refine forall_mem_mapActive (fun p mem _ => ?_) (fun p _ rests => rests)
    unfold Plateau.isActive
    split
    · next ph same => exact absurd same (ended ph)
    · rfl

/-! ### The dwell tick (R118) -/

/-- The phase is read from the state of the ACTIVE record alone. -/
theorem State.activePhase_congr {s t : State} (same : t.active.map Plateau.state = s.active.map Plateau.state) :
    t.activePhase = s.activePhase := by
  unfold State.activePhase
  cases before : s.active with
  | none =>
    rw [before] at same
    rw [Option.map_eq_none_iff.1 same]
  | some p =>
    rw [before] at same
    obtain ⟨q, after, state⟩ := Option.map_eq_some_iff.1 same
    rw [after]
    dsimp only
    rw [state]

/-- Records changed one by one, each in its state, show the phase of before. -/
theorem find_active_map_state {g : Plateau → Plateau} (state : ∀ p, (g p).state = p.state) (ps : List Plateau) :
    ((ps.map g).find? Plateau.isActive).map Plateau.state = (ps.find? Plateau.isActive).map Plateau.state := by
  rw [find_active_map fun p _ => Plateau.isActive_congr (state p), Option.map_map]
  exact Option.map_congr fun p _ => state p

theorem State.dwells_updateActive {s : State} {f : Plateau → Plateau} (state : ∀ p, (f p).state = p.state)
    (dwells : s.dwells) : (s.updateActive f).dwells := by
  obtain ⟨running, phase, window⟩ := dwells
  refine ⟨running, (State.activePhase_congr ?_).trans phase, window⟩
  refine find_active_map_state (fun p => ?_) _
  split
  · exact state p
  · rfl

theorem State.dwellTick_keepsPlan {s : State} (runs : s.spm.dwellTimer ≠ none) : s.KeepsPlan s.dwellTick := by
  intro consistent
  obtain ⟨shaped, timer⟩ := s.planConsistent_iff.1 consistent
  have dwells := timer (Option.isSome_iff_ne_none.2 runs)
  have running := dwells.1
  have underway : s.spm.plan.underway = true := by rw [running]; rfl
  have ticked : (s.updateActive Plateau.tick).PlanFits :=
    shaped.toPlanFits.updateActive underway (fun _ => rfl) (fun _ => rfl)
  have settled : s.dwellTick.PlanSettled := by
    unfold State.dwellTick
    dsimp only
    split
    · exact (ticked.endActive underway (final := .done .expired) nofun).report
    · refine ⟨⟨ticked.congr rfl rfl rfl, shaped.derived⟩, ⟨fun _ => ?_, fun _ => rfl⟩, fun paused => ?_⟩
      · exact State.dwells_updateActive (f := Plateau.tick) (fun _ => rfl) dwells
      · exact nomatch running.symm.trans paused
  exact ⟨settled.consistent, fun _ => settled.current⟩

/-! ### Requests that change records (R96 to R100) -/

/-- Records that fit the plan, the ACTIVE one in its phase. -/
theorem State.withPlateaus_keepsPlan {s : State} {ps : List Plateau} (fits : s.PlanFits → (s.withPlateaus ps).PlanFits)
    (phase : s.PlanFits → (ps.find? Plateau.isActive).map Plateau.state = s.active.map Plateau.state) :
    s.KeepsPlan (s.withPlateaus ps) := by
  intro consistent
  obtain ⟨shaped, timer⟩ := s.planConsistent_iff.1 consistent
  have dwells : (s.withPlateaus ps).dwells ↔ s.dwells := by
    have same : (s.withPlateaus ps).activePhase = s.activePhase := State.activePhase_congr (phase shaped.toPlanFits)
    unfold State.dwells
    rw [same]
    exact Iff.rfl
  refine ⟨(State.planConsistent_iff _).2 ⟨⟨fits shaped.toPlanFits, shaped.derived⟩, fun runs => dwells.2 (timer runs)⟩, ?_⟩
  intro current
  obtain ⟨rebalance, runs⟩ := s.planCurrent_iff.1 current
  exact (State.planCurrent_iff _).2 ⟨rebalance, runs.trans dwells.symm⟩

/-- A slot is FREE while fewer than 8 records are in the plan (R92). -/
theorem freePlateauSlot_free {ps : List Plateau} (room : ps.length < 8) :
    freePlateauSlot ps < 8 ∧ ∀ p ∈ ps, p.slot ≠ freePlateauSlot ps := by
  have exists_free : ∃ n ∈ List.range 8, n ∉ ps.map Plateau.slot := by
    by_contra taken
    push Not at taken
    have fewer := (List.subperm_of_subset (List.nodup_range (n := 8)) taken).length_le
    simp only [List.length_range, List.length_map] at fewer
    omega
  obtain ⟨m, low, free⟩ := exists_free
  have found : ((List.range 8).find? fun n => ps.all fun p => p.slot ≠ n) ≠ none := by
    intro none
    have taken := List.find?_eq_none.1 none m low
    simp only [List.all_eq_true, decide_eq_true_eq] at taken
    exact taken fun p mem same => free (List.mem_map.2 ⟨p, mem, same⟩)
  obtain ⟨n, is⟩ := Option.ne_none_iff_exists'.1 found
  have slot : freePlateauSlot ps = n := by
    change ((List.range 8).find? fun n => ps.all fun p => p.slot ≠ n).getD 0 = n
    rw [is]
    rfl
  have apart := List.find?_some is
  simp only [List.all_eq_true, decide_eq_true_eq] at apart
  rw [slot]
  exact ⟨List.mem_range.1 (List.mem_of_find?_eq_some is), apart⟩

/-- Records with a QUEUED one appended in a slot that was FREE. -/
theorem State.PlanFits.append {s : State} (h : s.PlanFits) {p : Plateau} (queued : p.state = .queued) (low : p.slot < 8)
    (free : ∀ q ∈ s.spm.plateaus, q.slot ≠ p.slot) {plan : PlanState} (suits : p.suits plan)
    (same : plan = s.spm.plan ∨ s.spm.plan = .empty ∧ plan = .loaded) :
    State.PlanFits { s with spm := { s.spm with plan := plan, plateaus := s.spm.plateaus ++ [p] } } where
  slots := by
    rw [List.map_append, List.nodup_append]
    refine ⟨h.slots, List.nodup_singleton _, ?_⟩
    intro a mem b memb
    obtain ⟨q, memq, rfl⟩ := List.mem_map.1 mem
    obtain rfl := List.mem_singleton.1 memb
    exact free q memq
  below := by
    intro q mem
    rcases List.mem_append.1 mem with old | new
    · exact h.below q old
    · rw [List.mem_singleton.1 new]; exact low
  suits := by
    intro q mem
    rcases List.mem_append.1 mem with old | new
    · rcases same with rfl | ⟨empty, -⟩
      · exact h.suits q old
      · have none := h.suits q old
        rw [empty] at none
        exact none.elim
    · rw [List.mem_singleton.1 new]; exact suits
  one := by
    intro underway
    rcases same with rfl | ⟨-, rfl⟩
    · have rests : p.isActive = false := Plateau.isActive_of_queued queued
      change (s.spm.plateaus ++ [p]).countP Plateau.isActive = 1
      rw [List.countP_append, h.one underway, List.countP_singleton, rests]
      rfl
    · exact nomatch underway
  filled _ := List.append_ne_nil_of_right_ne_nil _ (List.cons_ne_nil _ _)
  underived rests := by
    rcases same with rfl | ⟨empty, -⟩
    · exact h.underived rests
    · exact h.underived (by rw [empty]; exact nofun)

/-- Records changed one by one, each in its slot and state. -/
theorem State.PlanFits.map {s : State} (h : s.PlanFits) {g : Plateau → Plateau} (slot : ∀ p, (g p).slot = p.slot)
    (state : ∀ p, (g p).state = p.state) : (s.withPlateaus (s.spm.plateaus.map g)).PlanFits where
  slots := by
    have slots : (s.spm.plateaus.map g).map Plateau.slot = s.spm.plateaus.map Plateau.slot := by
      rw [List.map_map]
      exact List.map_congr_left fun p _ => slot p
    exact slots.symm ▸ h.slots
  below := List.forall_mem_map.2 fun p mem => by rw [slot]; exact h.below p mem
  suits := List.forall_mem_map.2 fun p mem => (Plateau.suits_congr (state p) _).2 (h.suits p mem)
  one underway := by
    refine Eq.trans ?_ (h.one underway)
    exact (List.countP_map ..).trans (List.countP_congr fun p _ => by simp [Plateau.isActive_congr (state p)])
  filled loaded none := h.filled loaded (List.map_eq_nil_iff.1 none)
  underived := h.underived

theorem ownAppend_keepsPlan (f : Frame) (s : State) : s.KeepsPlan (ownAppend f s).state := by
  unfold ownAppend
  dsimp only
  split
  · exact .refl s
  · next open_ =>
    split
    · exact .refl s
    · split
      · exact .refl s
      · next room =>
        obtain ⟨low, free⟩ := freePlateauSlot_free (ps := s.spm.plateaus) (Nat.not_le.1 room)
        generalize hp : Plateau.fresh (freePlateauSlot s.spm.plateaus) s.smax (plateauParams f.params) = p
        have queued : p.state = .queued := by rw [← hp]; rfl
        have slot : p.slot = freePlateauSlot s.spm.plateaus := by rw [← hp]; rfl
        rw [← slot] at low free
        have rests : p.isActive = false := Plateau.isActive_of_queued queued
        change s.KeepsPlan (s.withPlateaus (s.spm.plateaus ++ [p])).planAppended
        unfold State.planAppended
        split
        · next empty =>
          refine State.keepsPlan_of_settled fun shaped => State.PlanSettled.report (State.PlanShaped.refreshGrant ?_)
          have loaded := shaped.toPlanFits.append queued low free (plan := .loaded) (decide_eq_true queued)
            (Or.inr ⟨empty, rfl⟩)
          have become : (s.withPlateaus (s.spm.plateaus ++ [p])).planBecomes .loaded =
              State.post .planState { s with spm := { s.spm with plan := .loaded, plateaus := s.spm.plateaus ++ [p] } } :=
            if_neg (by rw [empty]; exact nofun)
          rw [become]
          exact ⟨loaded.of_spm rfl, nofun⟩
        · next filled =>
          have suits : p.suits s.spm.plan := by
            cases plan : s.spm.plan with
            | empty => exact absurd plan filled
            | loaded => exact decide_eq_true queued
            | running => exact fun held => nomatch queued.symm.trans held
            | paused why => exact fun active => nomatch active.symm.trans rests
            | complete => exact absurd (Or.inl plan) (by simpa using open_)
            | aborted => exact absurd (Or.inr plan) (by simpa using open_)
          refine State.withPlateaus_keepsPlan (fun fits => ?_) (fun _ => ?_)
          · exact (fits.append queued low free suits (Or.inl rfl)).congr rfl rfl rfl
          · rw [List.find?_append]
            simp [State.active, rests]

theorem State.withSlot_keepsPlan {s : State} {g : Plateau → Reply} (keeps : ∀ p ∈ s.spm.plateaus, s.KeepsPlan (g p).state)
    (slot : Nat) : s.KeepsPlan (s.withSlot slot g).state := by
  unfold State.withSlot
  split
  · exact .refl s
  · split
    · exact .refl s
    · next found => exact keeps _ (List.mem_of_find?_eq_some found)

theorem State.map_keepsPlan {s : State} {g : Plateau → Plateau} (slot : ∀ p, (g p).slot = p.slot)
    (state : ∀ p, (g p).state = p.state) : s.KeepsPlan (s.withPlateaus (s.spm.plateaus.map g)) :=
  State.withPlateaus_keepsPlan (fun fits => fits.map slot state) (fun _ => find_active_map_state state _)

/-- A record that is at rest removed (R99, R100). -/
theorem State.PlanFits.remove {s : State} (h : s.PlanFits) {p : Plateau} (mem : p ∈ s.spm.plateaus)
    (rests : p.isActive = false) (left : s.spm.plan = .loaded → removeSlot p.slot s.spm.plateaus ≠ []) :
    (s.withPlateaus (removeSlot p.slot s.spm.plateaus)).PlanFits where
  slots := h.slots.sublist (List.filter_sublist.map _)
  below q memq := h.below q (List.mem_of_mem_filter memq)
  suits q memq := h.suits q (List.mem_of_mem_filter memq)
  one underway := by
    refine Eq.trans ?_ (h.one underway)
    refine (List.countP_filter ..).trans (List.countP_congr fun q memq => ?_)
    by_cases active : q.isActive = true
    · have apart : q.slot ≠ p.slot := fun same => by
        rw [List.inj_on_of_nodup_map h.slots memq mem same, rests] at active
        exact nomatch active
      simp [active, apart]
    · simp [active]
  filled := left
  underived := h.underived

/-- The ACTIVE record is in another slot than one that is at rest. -/
theorem find_active_removeSlot {ps : List Plateau} (slots : (ps.map Plateau.slot).Nodup) {p : Plateau} (mem : p ∈ ps)
    (rests : p.isActive = false) : (removeSlot p.slot ps).find? Plateau.isActive = ps.find? Plateau.isActive := by
  rw [removeSlot, List.find?_filter]
  refine List.find?_congr fun q memq => ?_
  by_cases active : q.isActive = true
  · have apart : q.slot ≠ p.slot := fun same => by
      rw [List.inj_on_of_nodup_map slots memq mem same, rests] at active
      exact nomatch active
    simp [active, apart]
  · simp [active]

theorem State.removeSlot_keepsPlan {s : State} {p : Plateau} (mem : p ∈ s.spm.plateaus) (rests : p.isActive = false)
    (left : s.PlanFits → s.spm.plan = .loaded → removeSlot p.slot s.spm.plateaus ≠ []) :
    s.KeepsPlan (s.withPlateaus (removeSlot p.slot s.spm.plateaus)) :=
  State.withPlateaus_keepsPlan (fun fits => fits.remove mem rests (left fits))
    (fun fits => congrArg (Option.map Plateau.state) (find_active_removeSlot fits.slots mem rests))

end Sys2Proof.Machine
end

section
/-! The plan over its requests, the store, the resets and every step (R92 to R107, R118). -/

namespace Sys2Proof.Machine

/-! ### The plan's requests -/

/-- A plan with an ACTIVE record is under way (R93). -/
theorem State.PlanFits.underway {s : State} (h : s.PlanFits) {p : Plateau} (mem : p ∈ s.spm.plateaus)
    (active : p.isActive = true) : s.spm.plan.underway = true := by
  have suits := h.suits p mem
  cases plan : s.spm.plan with
  | running => rfl
  | paused why => rfl
  | empty => rw [plan] at suits; exact suits.elim
  | loaded =>
    rw [plan] at suits
    exact nomatch active.symm.trans (Plateau.queued_notActive suits)
  | complete =>
    rw [plan] at suits
    simp [Plateau.suits, Plateau.isOver, active] at suits
  | aborted =>
    rw [plan] at suits
    simp [Plateau.suits, Plateau.isOver, active] at suits

theorem Plateau.isActive_of_active {p : Plateau} {ph : Phase} (state : p.state = .active ph) : p.isActive = true := by
  rw [Plateau.isActive, state]

/-- An ACTIVE record that DWELLS is one of a RUNNING plan (R93). -/
theorem State.PlanFits.running_of_dwelling {s : State} (h : s.PlanFits) {p : Plateau} (mem : p ∈ s.spm.plateaus)
    (dwelling : p.state = .active .dwelling) : s.spm.plan = .running := by
  have active := Plateau.isActive_of_active dwelling
  have underway := h.underway mem active
  have suits := h.suits p mem
  cases plan : s.spm.plan with
  | running => rfl
  | paused why =>
    rw [plan] at suits
    exact nomatch dwelling.symm.trans (suits active)
  | empty => exact nomatch plan ▸ underway
  | loaded => exact nomatch plan ▸ underway
  | complete => exact nomatch plan ▸ underway
  | aborted => exact nomatch plan ▸ underway

theorem State.PlanFits.rampAgain {s : State} (h : s.PlanFits) {p : Plateau}
    (running : p.state = .active .dwelling → s.spm.plan = .running) : (s.rampAgain p).PlanFits := by
  unfold State.rampAgain
  dsimp only
  split
  · next again =>
    simp only [Bool.and_eq_true, decide_eq_true_eq] at again
    have runs := running again.1
    have underway : s.spm.plan.underway = true := by rw [runs]; rfl
    refine State.PlanFits.congr (s := s.updateActive (Plateau.withPhase .ramping)) ?_ rfl rfl rfl
    refine h.mapActive rfl underway underway (fun _ => rfl) (fun _ _ => rfl) (fun q _ _ => ?_) h.underived
    change Plateau.suits s.spm.plan _
    rw [runs]
    exact fun held => nomatch held
  · exact h

theorem State.rampAgain_rests {s : State} {p : Plateau} (rests : p.state ≠ .active .dwelling) : s.rampAgain p = s :=
  if_neg (by simp [rests])

/-- The ACTIVE record amended: its plateau ends, or the plan goes on with it (R98). -/
theorem State.amendTaken_keepsPlan {s : State} {p : Plateau} (mem : p ∈ s.spm.plateaus) (active : p.isActive = true)
    (v : PlateauParams) : s.KeepsPlan (s.amendTaken p v).planReport := by
  have given (q : Plateau) : (q.give s.smax v).slot = q.slot ∧ (q.give s.smax v).state = q.state := ⟨rfl, rfl⟩
  refine (State.planReport_keepsPlan _).after ?_
  unfold State.amendTaken
  dsimp only
  split
  · refine State.keepsPlan_of_settled fun shaped => ?_
    have underway := shaped.underway mem active
    exact (shaped.updateActive underway (fun q => (given q).1) (fun q => (given q).2)).endActive underway
      (final := .done .expired) nofun
  · split
    · refine State.keepsPlan_of_settled fun shaped => State.PlanFits.derive (State.PlanFits.rampAgain ?_ ?_) _
      · exact shaped.updateActive (shaped.underway mem active) (fun q => (given q).1) (fun q => (given q).2)
      · exact shaped.running_of_dwelling mem
    · next rests =>
      intro consistent
      have shaped := State.shaped_of_consistent consistent
      have running : s.spm.plan ≠ .running := by rwa [State.rampAgain_plan] at rests
      rw [State.rampAgain_rests fun dwelling => running (shaped.running_of_dwelling mem dwelling)]
      refine State.map_keepsPlan (fun q => ?_) (fun q => ?_) consistent
      · split
        · exact (given q).1
        · rfl
      · split
        · exact (given q).2
        · rfl

theorem ownAmendPlateau_keepsPlan (f : Frame) (s : State) : s.KeepsPlan (ownAmendPlateau f s).state := by
  refine State.withSlot_keepsPlan (fun p mem => ?_) _
  split
  · unfold State.amendQueued
    split
    · exact .refl s
    · refine State.map_keepsPlan (fun q => ?_) (fun q => ?_)
      · split <;> rfl
      · split <;> rfl
  · next state =>
    unfold State.amendActive
    generalize (if p.autoBalance then 1 else 0) = asked
    split_ifs
    · exact .refl s
    · exact .refl s
    · exact State.amendTaken_keepsPlan mem (Plateau.isActive_of_active state) _
  · exact .refl s
  · exact .refl s

theorem State.withdrawQueued_keepsPlan {s : State} {p : Plateau} (mem : p ∈ s.spm.plateaus) (queued : p.state = .queued) :
    s.KeepsPlan (s.withdrawQueued p.slot) := by
  have rests := Plateau.isActive_of_queued queued
  unfold State.withdrawQueued
  dsimp only
  split
  · next last =>
    simp only [Bool.and_eq_true, decide_eq_true_eq, List.isEmpty_iff] at last
    obtain ⟨loaded, none⟩ := last
    refine State.keepsPlan_of_settled fun shaped => State.PlanSettled.report (State.PlanShaped.refreshGrant ?_)
    have changes : (s.withPlateaus (removeSlot p.slot s.spm.plateaus)).spm.plan ≠ .empty :=
      fun empty => nomatch loaded.symm.trans empty
    have become : (s.withPlateaus (removeSlot p.slot s.spm.plateaus)).planBecomes .empty = State.post .planState
        { s with spm := { s.spm with plan := .empty, plateaus := removeSlot p.slot s.spm.plateaus } } := if_neg changes
    change ((s.withPlateaus (removeSlot p.slot s.spm.plateaus)).planBecomes .empty).PlanShaped
    rw [become, none]
    exact ⟨⟨List.nodup_nil, nofun, nofun, nofun, nofun, fun _ => shaped.underived (by rw [loaded]; exact nofun)⟩, nofun⟩
  · next left =>
    refine State.removeSlot_keepsPlan mem rests fun _ loaded none => left ?_
    simp only [Bool.and_eq_true, decide_eq_true_eq, List.isEmpty_iff]
    exact ⟨loaded, none⟩

theorem ownWithdraw_keepsPlan (f : Frame) (s : State) : s.KeepsPlan (ownWithdraw f s).state := by
  refine State.withSlot_keepsPlan (fun p mem => ?_) _
  split
  · next state => exact State.withdrawQueued_keepsPlan mem state
  · next state =>
    exact State.keepsPlan_of_settled fun shaped =>
      (shaped.endActive (shaped.underway mem (Plateau.isActive_of_active state)) (final := .skipped .withdrawn) nofun).report
  · exact .refl s
  · exact .refl s

theorem ownRetirePlateau_keepsPlan (f : Frame) (s : State) : s.KeepsPlan (ownRetirePlateau f s).state := by
  refine State.withSlot_keepsPlan (fun p mem => ?_) _
  split
  · next isOver =>
    simp only [Plateau.isOver, Bool.and_eq_true, Bool.not_eq_true'] at isOver
    refine State.removeSlot_keepsPlan mem isOver.2 fun fits loaded => ?_
    have suits := fits.suits p mem
    rw [loaded] at suits
    exact nomatch isOver.1.symm.trans suits
  · exact .refl s

/-- With no ACTIVE record a derivation is an evaluation (R110). -/
theorem State.derive_inactive {s : State} (none : s.active = none) (k : DerivationKind) : s.derive k = s.refreshGrant := by
  unfold State.derive
  rw [none]
  split
  · next found => exact nomatch found
  · rfl

/-- A START that is taken leaves the records QUEUED until the first is made ACTIVE (R102). -/
theorem State.PlanShaped.startTaken {s : State} (h : s.PlanShaped) (loaded : s.spm.plan = .loaded) :
    s.startTaken.PlanPending := by
  have rests (p : Plateau) (mem : p ∈ s.spm.plateaus) : p.isActive = false := by
    have suits := h.suits p mem
    rw [loaded] at suits
    exact Plateau.queued_notActive suits
  have kept : s.startTaken.spm.plateaus = s.spm.plateaus := eq_of_core s.startTaken_planOp.cores rests
  have running : s.startTaken.spm.plan = .running := by
    unfold State.startTaken State.ceilingAndGrant
    rw [State.derive_inactive]
    · refine ((State.evaluateGrant_rest _ _).1).trans ?_
      simp [State.computeCeiling, State.takeUpdate, State.post]
    · refine List.find?_eq_none.2 fun p mem => Bool.not_eq_true _ ▸ rests p ?_
      simpa [State.computeCeiling, State.takeUpdate, State.post] using mem
  exact ⟨kept ▸ h.slots, kept ▸ h.below, kept ▸ rests, by rw [running]; rfl, fun r => absurd running r⟩

theorem ownStart_keepsPlan (f : Frame) (s : State) : s.KeepsPlan (ownStart f s).state := by
  unfold ownStart
  split
  · exact .refl s
  · next loaded =>
    split_ifs
    · exact .refl s
    · exact .refl s
    · exact .refl s
    · refine State.keepsPlan_of_settled fun shaped => ?_
      change s.startPlan.PlanSettled
      rw [State.startPlan_eq]
      exact (shaped.startTaken (not_not.1 loaded)).activateNext.report

theorem ownPause_keepsPlan (f : Frame) (s : State) : s.KeepsPlan (ownPause f s).state := by
  unfold ownPause
  split
  · next running =>
    exact State.keepsPlan_of_settled fun shaped => (shaped.pausePlan (by rw [running]; rfl) .partner).refreshGrant.report
  · exact .refl s

theorem State.resumePlan_keepsPlan {s : State} (paused : s.spm.plan.isPaused = true) : s.KeepsPlan s.resumePlan := by
  have underway : s.spm.plan.underway = true := by
    cases plan : s.spm.plan <;> simp [plan, PlanState.isPaused] at paused
    rfl
  refine State.keepsPlan_of_settled fun shaped => State.PlanSettled.report (State.PlanFits.derive ?_ _)
  refine shaped.mapActive (f := Plateau.withPhase .ramping) rfl underway rfl (fun _ => rfl) (fun _ _ => rfl) (fun p _ _ => ?_)
    (fun rests => absurd rfl rests)
  exact fun held => nomatch held

theorem ownResume_keepsPlan (f : Frame) (s : State) : s.KeepsPlan (ownResume f s).state := by
  unfold ownResume
  split
  · next fits =>
    simp only [Bool.and_eq_true] at fits
    exact State.resumePlan_keepsPlan fits.1.1
  · exact .refl s

theorem ownNext_keepsPlan (f : Frame) (s : State) : s.KeepsPlan (ownNext f s).state := by
  refine State.withSlot_keepsPlan (fun p _ => ?_) _
  split
  · next fits =>
    simp only [Bool.and_eq_true, decide_eq_true_eq] at fits
    exact State.keepsPlan_of_settled fun shaped =>
      (shaped.endActive (by rw [fits.1]; rfl) (final := .done .next) nofun).report
  · exact .refl s

theorem Plateau.abort_slot (p : Plateau) : p.abort.slot = p.slot := by
  unfold Plateau.abort
  split <;> rfl

theorem Plateau.abort_isOver (p : Plateau) : p.abort.isOver = true := by
  unfold Plateau.abort
  split
  · next isOver => exact isOver
  · rfl

theorem State.abortPlan_keepsPlan (s : State) : s.KeepsPlan s.abortPlan := by
  refine State.keepsPlan_of_settled fun shaped => State.PlanSettled.report (State.PlanShaped.refreshGrant ?_)
  have slots : (s.spm.plateaus.map Plateau.abort).map Plateau.slot = s.spm.plateaus.map Plateau.slot := by
    rw [List.map_map]
    exact List.map_congr_left fun p _ => p.abort_slot
  refine ⟨⟨slots.symm ▸ shaped.slots, List.forall_mem_map.2 fun p mem => ?_, List.forall_mem_map.2 fun p _ => p.abort_isOver,
    nofun, nofun, fun _ => rfl⟩, nofun⟩
  rw [Plateau.abort_slot]
  exact shaped.below p mem

theorem ownAbort_keepsPlan (f : Frame) (s : State) : s.KeepsPlan (ownAbort f s).state := by
  unfold ownAbort
  split
  · exact s.abortPlan_keepsPlan
  · exact .refl s

theorem State.clearPlan_keepsPlan {s : State} (idle : s.spm.plan ≠ .running) : s.KeepsPlan s.clearPlan := by
  refine State.keepsPlan_of_settled fun shaped => ?_
  have spm := s.emptied_spm
  have emptied : s.emptied.PlanShaped := by
    refine ⟨⟨?_, ?_, ?_, ?_, ?_, fun _ => ?_⟩, ?_⟩
    · rw [spm]; exact List.nodup_nil
    · rw [spm]; exact nofun
    · rw [spm]; exact nofun
    · rw [spm]; exact nofun
    · rw [spm]; exact nofun
    · rw [spm]; exact shaped.underived idle
    · rw [spm]; exact nofun
  rw [State.clearPlan_eq]
  exact (emptied.changeBands _).refreshGrant.report

theorem ownClear_keepsPlan (f : Frame) (s : State) : s.KeepsPlan (ownClear f s).state := by
  unfold ownClear
  split
  · exact .refl s
  · next idle => exact State.clearPlan_keepsPlan fun running => idle (by rw [running]; rfl)

theorem ownGuard_keepsPlan (f : Frame) (s : State) : s.KeepsPlan (ownGuard f s).state := by
  unfold ownGuard
  split
  · exact .refl s
  · split
    · exact .refl s
    · exact State.changeGuard_keepsPlan _ s

/-! ### The requests of bands, load and ring -/

theorem State.withBand_keepsPlan {s : State} {g : Band → Reply} (keeps : ∀ b, s.KeepsPlan (g b).state) (id : Nat) :
    s.KeepsPlan (s.withBand id g).state := by
  unfold State.withBand
  split
  · exact .refl s
  · split
    · exact .refl s
    · exact keeps _

theorem ownDeclare_keepsPlan (f : Frame) (s : State) : s.KeepsPlan (ownDeclare f s).state := by
  unfold ownDeclare
  split
  · split
    · exact State.changeBands_keepsPlan _ s
    · exact State.changeBands_keepsPlan _ s
    · exact .refl s
  · exact .refl s

theorem ownRetireBand_keepsPlan (f : Frame) (s : State) : s.KeepsPlan (ownRetireBand f s).state := by
  refine State.withBand_keepsPlan (fun b => ?_) _
  split
  · exact .refl s
  · exact State.changeBands_keepsPlan _ s

theorem ownPin_keepsPlan (f : Frame) (s : State) : s.KeepsPlan (ownPin f s).state := by
  unfold ownPin
  split
  · exact .refl s
  · refine State.withBand_keepsPlan (fun b => ?_) _
    split
    · exact State.changeBands_keepsPlan _ s
    · exact .refl s

theorem ownAmendLoad_keepsPlan (f : Frame) (s : State) : s.KeepsPlan (ownAmendLoad f s).state := by
  unfold ownAmendLoad
  split
  · exact .refl s
  · split
    · exact .refl s
    · have estimates (b : Ibe) : s.KeepsPlan { s with ibe := b } := State.keepsPlan_of_frame ⟨rfl, rfl, rfl, rfl, rfl⟩
      change s.KeepsPlan (s.amendLoad _)
      unfold State.amendLoad
      dsimp only
      split
      · exact estimates _
      · exact (State.handUpdate_keepsPlan _).after (estimates _)

theorem ownInject_keepsPlan (f : Frame) (s : State) : s.KeepsPlan (ownInject f s).state := by
  unfold ownInject
  dsimp only
  split
  · exact .refl s
  · exact State.keepsPlan_of_frame (by simp [State.injectTaken, (State.ordersTaken_calm _).part])

/-! ### The store -/

/-- The store may differ in all but the Sdist in force. -/
theorem State.keepsPlan_of_value {s : State} {c : Cls} (value : c.value 14 = s.cls.value 14) :
    s.KeepsPlan { s with cls := c } :=
  State.SameRun.keeps ⟨rfl, rfl, rfl, rfl, rfl, rfl, rfl, value⟩

theorem State.programmingDone_keepsPlan (s : State) : s.KeepsPlan s.programmingDone := by
  unfold State.programmingDone
  split
  · exact .refl s
  · next p _ =>
    have stored : s.KeepsPlan { s with cls := s.cls.programmed p } := State.keepsPlan_of_value
      (Cls.update_value (f := fun i => { i with stored := p.words, checkOk := true }) (fun _ => ⟨rfl, rfl, rfl⟩)
        (fun n => n = p.item) s.cls 14)
    have answers (u : State) (port : PortState) : u.KeepsPlan { u with lkp := { u.lkp with cycle := port } } :=
      State.keepsPlan_of_frame ⟨rfl, rfl, rfl, rfl, rfl⟩
    exact (answers _ _).after stored

theorem ownKeyVerify_keepsPlan (f : Frame) (s : State) : s.KeepsPlan (ownKeyVerify f s).state := by
  unfold ownKeyVerify
  split
  · exact .refl s
  · split_ifs
    · exact .refl s
    · exact State.keepsPlan_of_value rfl
    · exact State.keepsPlan_of_value rfl

theorem State.lockService_keepsPlan (s : State) : s.KeepsPlan s.lockService := by
  have locks : s.KeepsPlan { s with cls := { s.cls with unlocked := false } } := State.keepsPlan_of_value rfl
  unfold State.lockService
  dsimp only
  split
  · exact (State.changeGuard_keepsPlan _ _).after locks
  · exact locks

theorem State.PlanFits.ifChanged {s : State} (h : s.PlanFits) {f : State → State}
    (keeps : ∀ u : State, u.PlanFits → (f u).PlanFits) (changed : Nat → Bool) (ns : List Nat) :
    (s.ifChanged changed ns f).PlanFits := by
  unfold State.ifChanged
  split
  · exact keeps s h
  · exact h

theorem State.PlanFits.estimatorWrite {s : State} (h : s.PlanFits) (changed : Nat → Bool) :
    (s.estimatorWrite changed).PlanFits := by
  have restarted := h.ifChanged (f := State.restartSmoothing) (fun u fits => fits.of_spm rfl) changed
  unfold State.estimatorWrite
  dsimp only
  split
  · exact (restarted _).giveUpdate
  · exact restarted _

theorem State.capacityWrite_spm (s : State) : s.capacityWrite.spm = s.spm := by
  unfold State.capacityWrite State.removeOrders State.lowerContents
  dsimp only
  split <;> simp

theorem State.PlanFits.reaim {s : State} (h : s.PlanFits) : s.reaim.PlanFits := by
  refine h.map (fun p => ?_) (fun p => ?_)
  · split <;> rfl
  · split <;> rfl

/-- A write is consumed with records and plan state as they are, and SPM computes ceiling and grant anew (R181). -/
theorem State.PlanFits.consumeWrite {s : State} (h : s.PlanFits) (changed : Nat → Bool) :
    (s.consumeWrite changed).PlanSettled := by
  have frame {f : State → State} (spm : ∀ u : State, (f u).spm = u.spm) (u : State) (fits : u.PlanFits) : (f u).PlanFits :=
    fits.of_spm (spm u)
  have polarity := h.ifChanged (frame fun u => by simp) changed [5] (f := fun t => t.polarityChanged.dropWindows)
  have sag := (polarity.ifChanged (frame fun u => by simp) changed [23, 24, 25, 26] (f := State.recomputeSag)).ifChanged
    (frame fun u => by simp) changed [22] (f := State.recomputeMass)
  have bands := ((sag.estimatorWrite changed).ifChanged (frame fun _ => rfl) changed [14] (f := State.raiseBands)).ifChanged
    (frame fun u => by simp) changed [38, 39] (f := State.reloadBands)
  have ring := ((bands.ifChanged (frame State.capacityWrite_spm) changed [3]).ifChanged (frame fun u => by simp) changed [15]
    (f := State.bleedTimers)).ifChanged (frame fun u => by simp) changed [16, 17] (f := State.refreeze)
  exact (ring.ifChanged (fun _ fits => fits.reaim) changed [2]).ceilingAndGrant.report

theorem ownCalWrite_keepsPlan (f : Frame) (s : State) : s.KeepsPlan (ownCalWrite f s).state := by
  unfold ownCalWrite
  split
  · dsimp only
    split
    · exact .refl s
    · split
      · exact .refl s
      · refine State.keepsPlan_of_settled fun shaped => State.PlanFits.consumeWrite ?_ _
        exact shaped.toPlanFits.of_spm rfl
  · exact .refl s

/-! ### Every owner -/

theorem ownClearTrip_keepsPlan (f : Frame) (s : State) : s.KeepsPlan (ownClearTrip f s).state := by
  unfold ownClearTrip
  split_ifs
  · exact .refl s
  · exact .refl s
  · exact .refl s
  · exact s.clearTrip_keepsPlan

theorem ownQuiet_keepsPlan (f : Frame) (s : State) : s.KeepsPlan (ownQuiet f s).state := by
  unfold ownQuiet
  dsimp only
  split_ifs
  · exact .refl s
  · exact .refl s
  · exact .refl s
  · exact .refl s
  · exact (State.setPart_keepsPlan _ _).after (State.keepsPlan_of_frame ⟨rfl, rfl, rfl, rfl, rfl⟩)

/-- An owner keeps the plan, whatever frame and state it finds. -/
def Owner.keepsPlan (own : Owner) : Prop := ∀ (f : Frame) (s : State), s.KeepsPlan (own f s).state

theorem commandOwner_keepsPlan (f : Frame) : (commandOwner f).keepsPlan := by
  unfold commandOwner
  split
  · exact ownStart_keepsPlan
  · exact ownPause_keepsPlan
  · exact ownResume_keepsPlan
  · exact ownNext_keepsPlan
  · exact ownAbort_keepsPlan
  · exact ownClear_keepsPlan
  · exact ownClearTrip_keepsPlan
  · exact fun _ s => State.keepsPlan_of_frame (by simp [ownFlush])
  · exact fun _ s => State.keepsPlan_of_frame (by simp [ownCancel])
  · exact ownGuard_keepsPlan
  · exact ownQuiet_keepsPlan
  · exact fun _ s => s.lockService_keepsPlan
  · exact fun _ s => .refl s
  · exact fun _ s => .refl s

theorem ownerOf_keepsPlan {f : Frame} (asks : f.kind ≠ 1#8) : (ownerOf f).keepsPlan := by
  unfold ownerOf
  split
  · next lookup => exact absurd (BitVec.eq_of_toNat_eq lookup) asks
  · exact ownAppend_keepsPlan
  · split
    · exact ownAmendPlateau_keepsPlan
    · exact ownAmendLoad_keepsPlan
  · exact ownWithdraw_keepsPlan
  · split
    · exact ownRetirePlateau_keepsPlan
    · exact ownRetireBand_keepsPlan
  · exact commandOwner_keepsPlan f
  · exact ownInject_keepsPlan
  · exact ownDeclare_keepsPlan
  · exact ownPin_keepsPlan
  · exact ownCalWrite_keepsPlan
  · exact ownKeyVerify_keepsPlan
  · exact fun _ s => .refl s

/-! ### Resets and steps -/

theorem State.beginReset_keepsPlan (powerOn : Bool) (reached : Nat) (rst : ResetControl) (s : State) :
    s.KeepsPlan (s.beginReset powerOn reached rst) :=
  State.keepsPlan_of_settled fun _ => State.planSettled_of_empty rfl rfl rfl rfl

theorem State.restarted_rests (s : State) : s.restarted.spm.derived = none ∧ s.restarted.spm.dwellTimer = none := by
  unfold State.restarted
  rw [State.loadStore_eq]
  exact ⟨rfl, rfl⟩

theorem State.endReset_keepsPlan (s : State) : s.KeepsPlan s.endReset := by
  obtain ⟨plan, plateaus, -⟩ := s.endReset_plan
  obtain ⟨derived, timer⟩ := s.restarted_rests
  obtain ⟨bs, reset, -⟩ := s.endReset_eq
  have spm : s.endReset.spm.derived = s.restarted.spm.derived ∧ s.endReset.spm.dwellTimer = s.restarted.spm.dwellTimer := by
    rw [reset]
    generalize s.restarted = u
    exact ⟨rfl, rfl⟩
  exact State.keepsPlan_of_settled fun _ =>
    State.planSettled_of_empty plan plateaus (spm.1.trans derived) (spm.2.trans timer)

theorem keepsPlan_stepRelation : StepRelation State.KeepsPlan where
  after := State.KeepsPlan.after
  unmoved h := State.keepsPlan_of_frame ⟨h.spm, h.first, h.lid, h.cls, h.part⟩
  beginReset := State.beginReset_keepsPlan
  endReset := State.endReset_keepsPlan
  setPart := State.setPart_keepsPlan
  findCause := State.findCause_keepsPlan
  lidSettles := State.lidSettles_keepsPlan
  indexEdge := State.indexEdge_keepsPlan
  standstill := State.standstill_keepsPlan
  dwellTick _ := State.dwellTick_keepsPlan
  openWindow := State.openWindow_keepsPlan
  closeOpening _ _ := State.keepsPlan_of_frame (by simp)
  bleedTick _ := State.keepsPlan_of_frame (by simp)
  chambersKnown _ := State.keepsPlan_of_frame (by simp)
  programmingDone := State.programmingDone_keepsPlan
  owner f s asks := ownerOf_keepsPlan asks f s

/-- Settles O58: the operations that move a block each keep the plan (`keepsPlan_stepRelation`), and a step does nothing else
(`StepRelation.step`). Every evaluation of the grant sets the dwell tick timer and the grant of REBALANCE right
(`State.PlanShaped.evaluateGrant`), so an operation that ends with one need only leave records that fit the plan. -/
theorem stepKeepsThePlanConsistent : Obligations.StepKeepsThePlanConsistent := by
  intro s t runs consistent
  obtain ⟨u, next, keeps⟩ := keepsPlan_stepRelation.step s
  obtain rfl : u = t := Host.Outcome.next.inj (next.symm.trans runs)
  exact keeps consistent

end Sys2Proof.Machine
end

section
/-! Four statements about the end and the change of the ACTIVE plateau fail on one state: its plan is consistent, but the ceiling in
force is 0, which none is that stages A to D give (R82). The fresh derivation then gives a grant of 0, with which a basket at rest
arrives at once (R117). The report that follows closes a learning span (R70), and the band change that this hands to SPM computes the
ceiling anew and raises the grant (R85, R114), while the plateau stays DWELLING. -/

namespace Sys2Proof.Machine

/-- A RUNNING plan under a ceiling of 0, a QUEUED plateau of 50 rpm waiting behind the ACTIVE one, the basket at rest, and a span of
three revolutions open. -/
def lowCeiling (active : Plateau) : State :=
  { State.reset with
    startUp := none
    rtb := { State.reset.rtb with atRest := true }
    rbt := { State.reset.rbt with span := some ⟨3, 500, 500, 1000⟩ }
    spm := { State.reset.spm with
      plan := .running
      plateaus := [active, ⟨1, 50, 50, 0, none, false, .queued, none, false, false, false⟩]
      ceiling := ⟨0, .floor, none⟩
      update := ⟨0, false, true⟩
      derived := some 0
      inWindow := true
      dwellTimer := if active.state = .active .dwelling then some 0 else none
      restartHold := false }
    tmo := { State.reset.tmo with lid := true }
    lkp := { State.reset.lkp with part := .run } }

/-- The ACTIVE plateau of 50 rpm in a phase, with a dwell of `dwell` of which nothing has elapsed. -/
def slowPlateau (dwell : Nat) (phase : Phase) : Plateau :=
  ⟨0, 50, 50, dwell, none, false, .active phase, some 0, false, false, false⟩

/-- The plan is RUNNING with its plateau DWELLING under a grant other than 0. -/
def State.dwellsMoving (t : State) : Bool :=
  t.spm.plan = .running && t.activePhase = some .dwelling && t.spm.grant.speed ≠ 0

/-- A command leads to a state in which the plateau is DWELLING under a grant other than 0. -/
def leadsToDwellsMoving (o : Host.Outcome State Fault Refusal) : Bool :=
  match o with
  | .next t => t.dwellsMoving
  | .fault _ => false
  | .refused _ => false

theorem State.dwellsMoving_iff (t : State) : t.dwellsMoving = true ↔
    t.spm.plan = .running ∧ t.activePhase = some .dwelling ∧ t.spm.grant.speed ≠ 0 := by
  simp [State.dwellsMoving, and_assoc]

theorem dwellsMoving_of_next {o : Host.Outcome State Fault Refusal} {t : State} (leads : leadsToDwellsMoving o = true)
    (next : o = .next t) : t.dwellsMoving = true := by
  rw [next] at leads
  exact leads

theorem State.activePhase_of_state {t : State} {q : Plateau} {ph : Phase} (active : t.active = some q)
    (state : q.state = .active ph) : t.activePhase = some ph := by
  unfold State.activePhase
  rw [active]
  dsimp only
  rw [state]

/-- The end of a plateau activates the next one RAMPING, or DWELLING under a grant of 0 (R103, R117). -/
theorem State.not_plateauEnds {t : State} (dwells : t.dwellsMoving = true) (active p : Plateau) (final : PlateauState)
    (rests : active.isQueued = false) : ¬ (lowCeiling active).plateauEnds p final t := by
  obtain ⟨running, phase, moving⟩ := t.dwellsMoving_iff.1 dwells
  have waits : (lowCeiling active).spm.plateaus.find? Plateau.isQueued =
      some ⟨1, 50, 50, 0, none, false, .queued, none, false, false, false⟩ := by
    refine (List.find?_cons_of_neg ?_).trans rfl
    rw [rests]
    exact Bool.false_ne_true
  rintro ⟨-, ends⟩
  rw [waits] at ends
  obtain ⟨q, found, -, -, -, runs⟩ := ends
  obtain ⟨-, -, ⟨paused, -⟩ | ⟨-, ramping | ⟨-, zero, -⟩⟩⟩ := runs rfl
  · exact nomatch running.symm.trans paused
  · exact nomatch phase.symm.trans (State.activePhase_of_state found ramping)
  · exact moving zero

/-- Refutes O37: NEXT on `lowCeiling` ends the plateau, and leaves the next one DWELLING under a grant of 50 rpm. -/
theorem not_nextEndsThePlateau : ¬ Obligations.NextEndsThePlateau := by
  intro h
  have leads : leadsToDwellsMoving (exec (.next 0 ⟨.cycle, 1#8, [0#16]⟩) (lowCeiling (slowPlateau 0 .ramping))) = true := by
    decide +kernel
  have takes : (lowCeiling (slowPlateau 0 .ramping)).takesCommand 1 ⟨.cycle, 1#8, [0#16]⟩ := by
    unfold State.takesCommand State.ready
    decide +kernel
  obtain ⟨-, -, found⟩ := h 0 0#16 _ _ takes rfl (by decide +kernel)
  obtain ⟨ends, -⟩ := found (slowPlateau 0 .ramping) List.mem_cons_self rfl
  obtain ⟨t, next, -, ended, -⟩ := ends rfl rfl
  exact State.not_plateauEnds (dwellsMoving_of_next leads next) _ _ _ rfl ended

/-- Refutes O36: WITHDRAW of the ACTIVE record of `lowCeiling` leaves the next one DWELLING under a grant of 50 rpm. -/
theorem not_withdrawAndRetireRecords : ¬ Obligations.WithdrawAndRetireRecords := by
  intro h
  have leads : leadsToDwellsMoving (exec (.withdraw 0 ⟨.cycle, 1#8, 0#16, []⟩) (lowCeiling (slowPlateau 0 .ramping))) = true := by
    decide +kernel
  have takes : (lowCeiling (slowPlateau 0 .ramping)).takes 0 ⟨.cycle, 1#8, 0#16, []⟩ := by
    unfold State.takes State.ready
    decide +kernel
  obtain ⟨-, -, found⟩ := h 0 _ _ takes (by decide +kernel)
  obtain ⟨-, -, ends, -⟩ := found (slowPlateau 0 .ramping) List.mem_cons_self rfl
  obtain ⟨t, next, -, ended, -⟩ := ends rfl
  exact State.not_plateauEnds (dwellsMoving_of_next leads next) _ _ _ rfl ended

/-- Refutes O16: the last tick of the dwell in `lowCeiling` leaves the next plateau DWELLING under a grant of 50 rpm. -/
theorem not_dwellTickCountsTheDwell : ¬ Obligations.DwellTickCountsTheDwell := by
  intro h
  have leads : leadsToDwellsMoving (exec .dwellTick (lowCeiling (slowPlateau 1 .dwelling))) = true := by decide +kernel
  obtain ⟨p, found, ticks⟩ := h 0 (lowCeiling (slowPlateau 1 .dwelling)) rfl rfl (by decide +kernel)
  obtain rfl : slowPlateau 1 .dwelling = p := Option.some.inj found
  obtain ⟨-, ends⟩ := ticks 0 rfl
  obtain ⟨t, next, ended, -⟩ := ends (by decide) (by decide)
  exact State.not_plateauEnds (dwellsMoving_of_next leads next) _ _ _ rfl ended

/-- Refutes O35: an AMEND of the ACTIVE record of `lowCeiling` to the values that it has leaves it DWELLING under a grant of 50 rpm. -/
theorem not_amendPlateauChangesARecord : ¬ Obligations.AmendPlateauChangesARecord := by
  intro h
  have leads : leadsToDwellsMoving (exec (.amendPlateau 0 ⟨.cycle, 1#8, 0#16, [50#16, 0#16, 0xFFFF#16, 0#16]⟩)
      (lowCeiling (slowPlateau 0 .ramping))) = true := by decide +kernel
  have takes : (lowCeiling (slowPlateau 0 .ramping)).takes 4 ⟨.cycle, 1#8, 0#16, [50#16, 0#16, 0xFFFF#16, 0#16]⟩ := by
    unfold State.takes State.ready
    decide +kernel
  obtain ⟨-, -, found⟩ := h 0 50#16 0#16 0xFFFF#16 0#16 _ _ takes rfl (by decide +kernel)
  obtain ⟨-, -, -, -, -, taken⟩ := found (slowPlateau 0 .ramping) List.mem_cons_self rfl
  obtain ⟨t, next, -, -, -, goesOn⟩ := taken rfl rfl (by decide)
  obtain ⟨running, phase, moving⟩ := t.dwellsMoving_iff.1 (dwellsMoving_of_next leads next)
  obtain ⟨q, active, -, -, -, runs⟩ := goesOn (by rintro ⟨e, -, endless, -⟩; exact endless rfl)
  rcases runs rfl with ⟨paused, -⟩ | ⟨-, ramping | ⟨-, zero, -⟩⟩
  · exact nomatch running.symm.trans paused
  · exact nomatch phase.symm.trans (State.activePhase_of_state active ramping)
  · exact moving zero

end Sys2Proof.Machine
end

section
/-! An evaluation and a report of a plan that is neither RUNNING nor in REBALANCE; and APPEND, by the order of its tests (R96). -/

namespace Sys2Proof.Machine

/-! ### A plan at rest over an evaluation and a report -/

/-- What an evaluation leaves of a plan that is neither RUNNING nor in REBALANCE: plan state and records as they are, a grant of 0 and
the dwell tick timer stopped (R118, R119). -/
structure State.Rests (s t : State) : Prop where
  op : s.PlanOp t
  plan : t.spm.plan = s.spm.plan
  plateaus : t.spm.plateaus = s.spm.plateaus
  speed : t.spm.grant.speed = 0
  derived : t.spm.derived = s.spm.derived
  dwellTimer : t.spm.dwellTimer = none

theorem State.Rests.after {s t u : State} (k : t.Rests u) (h : s.Rests t) : s.Rests u :=
  ⟨h.op.trans k.op, k.plan.trans h.plan, k.plateaus.trans h.plateaus, k.speed, k.derived.trans h.derived, k.dwellTimer⟩

theorem State.refreshGrant_rests {s : State} (idle : s.spm.plan ≠ .running) (balanced : s.spm.plan ≠ .paused .rebalance) :
    s.Rests s.refreshGrant := by
  refine ⟨s.refreshGrant_planOp, (s.evaluateGrant_rest _).1, ?_, State.refreshGrant_idle idle balanced,
    State.evaluateGrant_derived _ s, ?_⟩
  all_goals
    obtain ⟨plan, records, -⟩ := s.shown_plan (s.grantRecord s.spm.grant.speed) s.spm.grant.speed
    unfold State.refreshGrant State.evaluateGrant
    generalize (s.putGrant (s.grantRecord s.spm.grant.speed)).speedChanged s.spm.grant.speed = u at *
    have arrived : u.arriveAtZero = u := if_neg (by simp [plan, idle])
    rw [arrived]
  · exact records
  · simp [State.syncDwell, plan, idle]

/-- A report leaves a plan at rest, whatever band it hands to SPM. -/
theorem State.Rests.report {s t : State} (h : s.Rests t) (idle : s.spm.plan ≠ .running)
    (balanced : s.spm.plan ≠ .paused .rebalance) : s.Rests t.planReport := by
  have same (v : State) (op : t.PlanOp v) (spm : v.spm = t.spm) : s.Rests v :=
    ⟨h.op.trans op, by rw [spm, h.plan], by rw [spm, h.plateaus], by rw [spm, h.speed], by rw [spm, h.derived],
      by rw [spm, h.dwellTimer]⟩
  have computes (v : State) (op : t.PlanOp v) (spm : v.spm = t.spm) : s.Rests v.ceilingAndGrant := by
    have plan : v.spm.plan = s.spm.plan := (same v op spm).plan
    have rests := State.refreshGrant_rests (s := v.computeCeiling) (plan ▸ idle) (plan ▸ balanced)
    rw [State.ceilingAndGrant, State.derive_idle .held (s := v.computeCeiling) (plan ▸ idle)]
    exact ⟨((same v op spm).op.trans v.computeCeiling_planOp).trans rests.op, rests.plan.trans plan,
      rests.plateaus.trans (same v op spm).plateaus, rests.speed, rests.derived.trans (same v op spm).derived, rests.dwellTimer⟩
  have closes : s.Rests t.closeSpan := by
    have placed (bs : List Band) :
        s.Rests ((({ t with rbt := { t.rbt with span := none } } : State).withBands bs).post .bandLearned).ceilingAndGrant :=
      computes _ (State.PlanOp.trans (t := { t with rbt := ⟨bs, none⟩ }) (State.planOp_of_ring rfl rfl)
        (State.post_planOp .bandLearned _)) rfl
    unfold State.closeSpan
    split
    · exact h
    · dsimp only
      split
      · exact same _ (State.planOp_of_ring rfl rfl) rfl
      · split
        · exact same _ (State.PlanOp.trans (t := { t with rbt := { t.rbt with span := none } })
            (State.planOp_of_ring rfl rfl) (State.post_planOp .bandOverflow _)) rfl
        · exact placed _
        · exact placed _
  have refreezes (v : State) (k : s.Rests v) : s.Rests v.refreeze := by
    have spm : v.refreeze.spm = v.spm := by simp
    exact ⟨k.op.trans v.refreeze_planOp, by rw [spm, k.plan], by rw [spm, k.plateaus], by rw [spm, k.speed],
      by rw [spm, k.derived], by rw [spm, k.dwellTimer]⟩
  unfold State.planReport
  split
  · exact refreezes t h
  · exact refreezes _ closes

/-- What a plan that has come to rest shows after its evaluation and its report (R109, R119). -/
theorem State.refreshGrant_report_rests {s : State} (idle : s.spm.plan ≠ .running)
    (balanced : s.spm.plan ≠ .paused .rebalance) : s.Rests s.refreshGrant.planReport :=
  (State.refreshGrant_rests idle balanced).report idle balanced

/-! ### APPEND -/

/-- Test 2 of R96 on the words of a request. -/
theorem plateauParams_fits (target dwell floor auto : Word) : (plateauParams [target, dwell, floor, auto]).fits = true ↔
    target.toNat ≤ 1200 ∧ (floor = 0xFFFF#16 ∨ (floor.toNat ≤ 1200 ∧ floor.toNat ≤ target.toNat)) ∧ auto.toNat ≤ 1 := by
  have words : plateauParams [target, dwell, floor, auto] =
      ⟨target.toNat, dwell.toNat, if floor = 0xFFFF#16 then none else some floor.toNat, auto.toNat⟩ := rfl
  rw [words]
  by_cases absent : floor = 0xFFFF#16 <;> simp [PlateauParams.fits, absent, and_assoc]

theorem plateauParams_outcome (target dwell floor auto : Word) (smax : Nat) :
    adjustedIf ((plateauParams [target, dwell, floor, auto]).adjusted smax) =
      if smax < target.toNat ∨ 18000 < dwell.toNat then .adjusted else .done := by
  have words : (plateauParams [target, dwell, floor, auto]).adjusted smax =
      (decide (smax < target.toNat) || decide (18000 < dwell.toNat)) := rfl
  simp [words, adjustedIf]

/-- The lowest FREE slot: every slot below it is taken (R92). -/
theorem freePlateauSlot_lowest {ps : List Plateau} (room : ps.length < 8) {n : Nat} (below : n < freePlateauSlot ps) :
    ∃ p ∈ ps, p.slot = n := by
  obtain ⟨low, -⟩ := freePlateauSlot_free room
  by_contra free
  push Not at free
  have apart : (ps.all fun p => p.slot ≠ n) = true := by simpa using free
  have found : ∃ m, (List.range 8).find? (fun n => ps.all fun p => p.slot ≠ n) = some m := by
    refine Option.ne_none_iff_exists'.1 fun none => List.find?_eq_none.1 none n ?_ apart
    exact List.mem_range.2 (below.trans low)
  obtain ⟨m, is⟩ := found
  have slot : freePlateauSlot ps = m := by
    change ((List.range 8).find? fun n => ps.all fun p => p.slot ≠ n).getD 0 = m
    rw [is]
    rfl
  obtain ⟨-, -, least⟩ := List.find?_range_eq_some.1 is
  have taken := least n (slot ▸ below)
  rw [apart] at taken
  exact absurd taken (by decide)

/-- An APPEND to an EMPTY plan makes it LOADED, and leaves everything else (R96, R109). -/
theorem State.planAppended_frame {s : State} (empty : s.spm.plan = .empty) (ps : List Plateau) :
    let t := (s.withPlateaus ps).planAppended
    s.planFrame t ∧ t.spm.plateaus = ps ∧ t.spm.plan = .loaded ∧ t.lkp.notices.planState = true := by
  have changes : (s.withPlateaus ps).spm.plan ≠ .loaded := fun loaded => nomatch empty.symm.trans loaded
  have become : (s.withPlateaus ps).planBecomes .loaded =
      State.post .planState { s with spm := { s.spm with plan := .loaded, plateaus := ps } } := if_neg changes
  have appended : (s.withPlateaus ps).planAppended = ((s.withPlateaus ps).planBecomes .loaded).refreshGrant.planReport :=
    if_pos empty
  dsimp only
  rw [appended, become]
  generalize hu : State.post .planState { s with spm := { s.spm with plan := .loaded, plateaus := ps } } = u
  have loaded : u.spm.plan = .loaded := by rw [← hu]; rfl
  have rests := State.refreshGrant_report_rests (s := u) (by rw [loaded]; exact nofun) (by rw [loaded]; exact nofun)
  have op := u.refreshGrant_planOp
  refine ⟨?_, rests.plateaus.trans (by rw [← hu]; rfl), rests.plan.trans loaded,
    rests.op.notices .planState (by rw [← hu]; rfl)⟩
  refine planFrame_report ?_ ?_ (op.guard.trans ?_) (op.restartHold.trans ?_) (op.part.trans ?_) ?_ ?_ fun _ _ => ?_
  · simp [State.sameSensing, ← hu, State.post]
  · simp [← hu, State.post]
  · rw [← hu]; rfl
  · rw [← hu]; rfl
  · rw [← hu]; rfl
  · simp [← hu, State.post]
  · simp [← hu, State.post]
  · have plan : u.refreshGrant.spm.plan = .loaded := (u.evaluateGrant_rest _).1.trans loaded
    rw [plan]
    exact ⟨nofun, nofun⟩

/-- APPEND to a plan that is over (R96, test 1). -/
theorem ownAppend_finished {s : State} (finished : s.spm.plan = .complete ∨ s.spm.plan = .aborted) (f : Frame) :
    ownAppend f s = s.answer .access := if_pos (by simpa using finished)

section

variable {f : Frame} {s : State} (goesOn : ¬(s.spm.plan = .complete ∨ s.spm.plan = .aborted))
include goesOn

/-- APPEND of values out of range (R96, test 2). -/
theorem ownAppend_unfit (unfit : (plateauParams f.params).fits = false) : ownAppend f s = s.answer .range :=
  (if_neg (by simpa using goesOn)).trans (if_pos (by simp [unfit]))

variable (fits : (plateauParams f.params).fits = true)
include fits

/-- APPEND to a full list (R96, test 3). -/
theorem ownAppend_full (full : s.spm.plateaus.length = 8) : ownAppend f s = s.answer .full :=
  (if_neg (by simpa using goesOn)).trans ((if_neg (by simp [fits])).trans (if_pos full.ge))

/-- An APPEND that is taken (R96). -/
theorem ownAppend_taken (room : s.spm.plateaus.length < 8) : ownAppend f s =
    (s.withPlateaus (s.spm.plateaus ++
      [Plateau.fresh (freePlateauSlot s.spm.plateaus) s.smax (plateauParams f.params)])).planAppended.answerWith
      (adjustedIf ((plateauParams f.params).adjusted s.smax)) [word (freePlateauSlot s.spm.plateaus)] :=
  (if_neg (by simpa using goesOn)).trans ((if_neg (by simp [fits])).trans (if_neg (Nat.not_le.2 room)))

end

/-- A request on the cycle port that its owner answers with a record. -/
theorem finish_answerWith {f : Frame} (port : f.port = .cycle) (s : State) (o : Outcome) (ws : List Word) :
    State.finish f (s.answerWith o ws) = s.replying .cycle f.caller ⟨o, ws⟩ := by
  rw [State.answerWith, State.finish_answer, port]

/-- Settles O34, by the order of the tests of R96 and the record in the lowest FREE slot. -/
theorem appendAddsARecord : Obligations.AppendAddsARecord := by
  intro after target dwell floor auto r s takes params _
  have asks : exec (.append after r) s =
      .next (State.finish (frameOf 2#8 2#8 r) (ownAppend (frameOf 2#8 2#8 r) (s.taking after .cycle))) :=
    received_takes takes after ownAppend 2#8 2#8 [4] (by decide) (by decide)
  have given : (frameOf 2#8 2#8 r).params = [target, dwell, floor, auto] := params
  have refuses (o : Outcome) : (.next (State.finish (frameOf 2#8 2#8 r) ((s.taking after .cycle).answer o)) :
      Host.Outcome State Fault Refusal) = s.justAnswers after ⟨r.addr, 2#8, 2#8⟩ o [] :=
    finish_justAnswers_nil after _ takes.1 o
  have fitsIff := plateauParams_fits target dwell floor auto
  rw [← given] at fitsIff
  refine ⟨fun finished => ?_, fun goesOn unfit => ?_, fun goesOn fits full => ?_, fun goesOn fits room => ?_⟩
  · rw [asks, ownAppend_finished (s := s.taking after .cycle) finished, refuses]
  · rw [asks, ownAppend_unfit (s := s.taking after .cycle) goesOn (Bool.eq_false_iff.2 fun h => unfit (fitsIff.1 h)), refuses]
  · rw [asks, ownAppend_full (s := s.taking after .cycle) goesOn (fitsIff.2 fits) full, refuses]
  obtain ⟨low, free⟩ := freePlateauSlot_free room
  refine ⟨freePlateauSlot s.spm.plateaus, low, free, fun n below => freePlateauSlot_lowest room below, ?_⟩
  intro fresh answer
  have taken : ownAppend (frameOf 2#8 2#8 r) (s.taking after .cycle) =
      ((s.taking after .cycle).withPlateaus (s.spm.plateaus ++ [fresh])).planAppended.answerWith answer.outcome answer.words := by
    rw [ownAppend_taken (s := s.taking after .cycle) goesOn (fitsIff.2 fits) room, given, plateauParams_outcome]
    rfl
  rw [taken] at asks
  refine ⟨fun filled => ?_, fun empty => ?_⟩
  · rw [asks, finish_answerWith takes.1]
    have kept : ((s.taking after .cycle).withPlateaus (s.spm.plateaus ++ [fresh])).planAppended =
        (s.taking after .cycle).withPlateaus (s.spm.plateaus ++ [fresh]) := if_neg filled
    rw [kept]
    rfl
  · obtain ⟨frame, plateaus, plan, posted⟩ :=
      State.planAppended_frame (s := s.taking after .cycle) empty (s.spm.plateaus ++ [fresh])
    obtain ⟨-, -, -, -, -, -, -, -, -, spm, -⟩ := State.finish_frame (frameOf 2#8 2#8 r)
      (((s.taking after .cycle).withPlateaus (s.spm.plateaus ++ [fresh])).planAppended.answerWith answer.outcome answer.words)
    refine ⟨_, asks, finish_reply _ _ _ _ takes.1, (congrArg Spm.plateaus spm).trans plateaus,
      (congrArg Spm.plan spm).trans plan, ?_, planFrame_taking after .cycle (planFrame_finish _ _ _ frame)⟩
    exact (congrArg NoticeSet.planState (State.setPort_lkp _ _ _).2.2.1).trans posted

end Sys2Proof.Machine
end

section
/-! PAUSE and RESUME: the plan HELD with a grant of 0, and run again with the grant of a fresh derivation (R104, R110 to R113). -/

namespace Sys2Proof.Machine

/-! ### Records of the same cores -/

/-- Of records in distinct slots with one ACTIVE among them, an operation of the plan changes the ACTIVE one alone. -/
theorem records_of_active {ps qs : List Plateau} {p q : Plateau} (cores : qs.map Plateau.core = ps.map Plateau.core)
    (slots : (ps.map Plateau.slot).Nodup) (one : ps.countP Plateau.isActive = 1)
    (before : ps.find? Plateau.isActive = some p) (after : qs.find? Plateau.isActive = some q) :
    qs = ps.map (fun k => if k.slot = p.slot then q else k) := by
  obtain ⟨active, front, back, rfl, rests⟩ := List.find?_eq_some_iff_append.1 before
  have frontRests : ∀ k ∈ front, k.isActive = false := fun k mem => by simpa using rests k mem
  have backRests : ∀ k ∈ back, k.isActive = false := by
    rw [List.countP_append, List.countP_cons_of_pos active] at one
    have none : back.countP Plateau.isActive = 0 := by omega
    exact fun k mem => Bool.eq_false_iff.2 (List.countP_eq_zero.1 none k mem)
  rw [List.map_append, List.map_cons] at cores
  obtain ⟨front', tail, rfl, frontCores, tailCores⟩ := List.map_eq_append_iff.1 cores
  obtain ⟨q', back', rfl, core, backCores⟩ := List.map_eq_cons_iff.1 tailCores
  obtain rfl := eq_of_core frontCores frontRests
  obtain rfl := eq_of_core backCores backRests
  have active' : q'.isActive = true := by rw [← Plateau.core_isActive, core, Plateau.core_isActive, active]
  have found : (front' ++ q' :: back').find? Plateau.isActive = some q' :=
    List.find?_eq_some_iff_append.2 ⟨active', front', back', rfl, rests⟩
  obtain rfl := Option.some.inj (found.symm.trans after)
  rw [List.map_append, List.map_cons, List.nodup_middle, List.nodup_cons, List.mem_append] at slots
  have apart (l : List Plateau) (inside : ∀ k ∈ l, k.slot ∈ front'.map Plateau.slot ∨ k.slot ∈ back'.map Plateau.slot) :
      ∀ k ∈ l, k.slot ≠ p.slot := fun k mem same => slots.1 (same ▸ inside k mem)
  rw [List.map_append, List.map_cons, if_pos rfl,
    map_otherSlots (apart front' fun k mem => Or.inl (List.mem_map_of_mem mem)) (fun _ => q'),
    map_otherSlots (apart back' fun k mem => Or.inr (List.mem_map_of_mem mem)) (fun _ => q')]

/-- What an operation of the plan leaves of the records of a plan under way: the ACTIVE one may differ in phase and flags. -/
theorem State.PlanFits.records {s t : State} (h : s.PlanFits) (underway : s.spm.plan.underway = true)
    (cores : t.spm.plateaus.map Plateau.core = s.spm.plateaus.map Plateau.core) :
    ∃ p q, s.active = some p ∧ t.active = some q ∧
      q = { p with state := q.state, derated := q.derated, bandAdjusted := q.bandAdjusted } ∧
      t.spm.plateaus = s.spm.plateaus.map (fun k => if k.slot = p.slot then q else k) := by
  obtain ⟨p, -, -, active⟩ := h.active underway
  have cored := active_of_cores cores
  rw [active] at cored
  obtain ⟨q, found, core⟩ := Option.map_eq_some_iff.1 cored
  exact ⟨p, q, active, found, Plateau.eq_of_core core, records_of_active cores h.slots (h.one underway) active found⟩

/-! ### A fresh derivation -/

section

variable {s : State} {p : Plateau} (running : s.spm.plan = .running) (active : s.active = some p)
include running active

theorem State.derive_fresh_some {v : Nat} (value : (s.derivation p).value = some v) :
    s.derive .fresh = (s.withDerived p v).evaluateGrant v := by
  simp only [State.derive, running, active, value]
  rfl

theorem State.derive_fresh_grant (unforced : s.grantForced = false) {v : Nat} (value : (s.derivation p).value = some v) :
    (s.derive .fresh).spm.grant.speed = v := by
  have still : (s.withDerived p v).grantForced = false := unforced
  have runs : (s.withDerived p v).spm.plan = .running := running
  rw [State.derive_fresh_some running active value, State.evaluateGrant_speed, State.grantSpeed, still, runs]
  rfl

/-- A fresh derivation leaves the marks and flags of a held one; the grant speed is nothing to them. -/
theorem State.derive_fresh_derivedFrom (unforced : s.grantForced = false) :
    (s.derive .fresh).derivedFrom p (s.outOfBands (min p.target s.spm.ceiling.value)) (s.derivation p).value := by
  have held := State.derive_held_derivedFrom running active unforced
  cases value : (s.derivation p).value with
  | none =>
    rwa [State.derive_none running active .held value, ← State.derive_none running active .fresh value, value] at held
  | some v =>
    obtain ⟨moved, rejecting⟩ := s.derivation_marks p
    have flagged : (s.updateActive (Plateau.flagged (s.derivation p))).active = some (p.flagged (s.derivation p)) := by
      rw [State.updateActive_active (f := Plateau.flagged (s.derivation p)) (fun _ is => is), active]
      rfl
    have same := (s.withDerived p v).evaluateGrant_sameGrant v
    obtain ⟨derived, rejects, bandMoved⟩ := same.search
    obtain ⟨q, found, fields⟩ := State.evaluateGrant_record (s := s.withDerived p v) flagged v
    rw [State.derivedFrom, State.derive_ceiling, ← moved, State.derive_fresh_some running active value]
    refine ⟨fun n is => ?_, nofun, q, found, ?_, ?_, ?_⟩
    · obtain rfl := Option.some.inj is
      exact ⟨same.plan.trans running, derived, rejects.trans (rejecting v value), bandMoved⟩
    · rw [fields]
      rfl
    · rw [fields, ← value]
      rfl
    · rw [fields]
      rfl

end

/-- What a derivation leaves is read from the plan, the store and the notices. -/
theorem State.derivedFrom_congr {t u : State} (spm : u.spm = t.spm) (cls : u.cls = t.cls)
    (notices : u.lkp.notices = t.lkp.notices) {p : Plateau} {c : Nat} {value : Option Nat} (h : t.derivedFrom p c value) :
    u.derivedFrom p c value := by
  simpa only [State.derivedFrom, State.activePhase, State.active, State.sdist, spm, cls, notices] using h

/-! ### PAUSE -/

/-- A PAUSE that is taken leaves everything but the plan (R104, R109). -/
theorem State.pausePlan_report (s : State) : s.planFrame (s.pausePlan .partner).refreshGrant.planReport ∧
      (s.pausePlan .partner).Rests (s.pausePlan .partner).refreshGrant.planReport := by
  have rests := State.refreshGrant_report_rests (s := s.pausePlan .partner) nofun nofun
  refine ⟨?_, rests⟩
  have op := (s.pausePlan .partner).refreshGrant_planOp
  refine planFrame_report ?_ ?_ op.guard op.restartHold op.part ?_ ?_ fun _ _ => ?_
  · simp [State.sameSensing]
  · simp
  · simp
  · simp
  · have plan : (s.pausePlan .partner).refreshGrant.spm.plan = .paused .partner := ((s.pausePlan .partner).evaluateGrant_rest _).1
    rw [plan]
    exact ⟨nofun, nofun⟩

/-! ### RESUME -/

/-- The plan RUNNING again with its ACTIVE record RAMPING, before the derivation (R104). -/
def State.resumed (s : State) : State :=
  (State.post .planState { s with spm := { s.spm with plan := .running } }).updateActive (Plateau.withPhase .ramping)

theorem State.resumePlan_eq (s : State) : s.resumePlan = (s.resumed.derive .fresh).planReport := rfl

theorem State.resumed_cores (s : State) :
    s.resumed.spm.plateaus.map Plateau.core = s.spm.plateaus.map Plateau.core :=
  map_core_mapActive (fun _ active => Plateau.core_withPhase _ active) _

theorem State.resumePlan_planOp (s : State) : s.resumed.PlanOp s.resumePlan :=
  (State.derive_planOp .fresh s.resumed).trans (State.planReport_planOp _)

theorem PlanState.started_unfrozen {plan : PlanState} (started : plan.started) : plan ≠ .paused .trip ∧ plan ≠ .paused .lid := by
  rcases started with rfl | rfl <;> exact ⟨nofun, nofun⟩

theorem State.resumePlan_frame (s : State) : s.planFrame s.resumePlan := by
  have op := State.derive_planOp .fresh s.resumed
  have unfrozen := PlanState.started_unfrozen (op.started (Or.inl rfl))
  refine planFrame_report ?_ ?_ op.guard op.restartHold op.part ?_ ?_ fun _ _ => unfrozen
  · simp [State.sameSensing, State.post]
  · simp [State.post]
  · simp [State.post]
  · simp [State.post]

/-- The value of steps 1 to 3 for the ACTIVE record of a PAUSED plan is the grant of its RESUME (R104, R111 to R113). -/
theorem State.resumePlan_derives {s : State} (rests : s.spm.plan ≠ .running) (safe : s.bandsSafe = true)
    (unforced : s.grantForced = false) {p : Plateau} (active : s.active = some p) :
    ∃ c value, s.derives p c value ∧ s.resumePlan.derivedFrom p c value ∧
      ∀ v, value = some v → s.resumePlan.spm.grant.speed = v := by
  have running : s.resumed.spm.plan = .running := rfl
  have still : s.resumed.grantForced = false := unforced
  have ramping : s.resumed.active = some (p.withPhase .ramping) :=
    (find_active_mapActive (fun _ _ => rfl) s.spm.plateaus).trans (congrArg _ active)
  have same : s.resumed.SameCeiling s := State.sameCeiling_of_frame ⟨rfl, rfl, rfl, rfl⟩ ⟨rfl, rfl, rfl⟩
  have margin := (State.tableSafe_of_safe safe).bandsAbove.margin
  have bands : (s.resumed.derive .fresh).rbt = s.resumed.rbt := by simp
  have unopened : s.rbt.span = none := State.span_closed safe rests
  have closed : (s.resumed.derive .fresh).rbt.span = none := (congrArg Rbt.span bands).trans unopened
  have report : s.resumePlan = (s.resumed.derive .fresh).refreeze := State.planReport_closed closed
  have derived := State.derive_fresh_derivedFrom running ramping still
  refine ⟨s.resumed.outOfBands (min p.target s.resumed.spm.ceiling.value), (s.resumed.derivation (p.withPhase .ramping)).value,
    ?_, ?_, fun v value => ?_⟩
  · exact State.derives_congr same (State.receptance_congr rfl rfl) (s.resumed.derives_derivation (p.withPhase .ramping) margin)
  · rw [report]
    exact State.derivedFrom_congr (by simp) (by simp) (by simp) derived
  · rw [report]
    exact (congrArg (fun spm : Spm => spm.grant.speed) (by simp)).trans (State.derive_fresh_grant running ramping still value)

theorem PlanState.underway_of_paused {plan : PlanState} (paused : plan.isPaused = true) :
    plan.underway = true ∧ plan ≠ .running := by
  cases plan <;> simp [PlanState.isPaused, PlanState.underway] at paused ⊢

/-- Settles O39: the records by their cores (`State.PlanFits.records`), the grant of a RESUME by the fresh derivation, which no span
open in a PAUSED plan follows with another. -/
theorem pauseAndResume : Obligations.PauseAndResume := by
  intro after r s takes consistent
  have pauses : exec (.pause after r) s = .next (State.finish (commandFrame 1#8 2#16 r)
      (ownPause (commandFrame 1#8 2#16 r) (s.taking after .cycle))) :=
    received_takesCommand takes after ownPause 1#8 2#16 [0] (by decide) (by decide)
  have resumes : exec (.resume after r) s = .next (State.finish (commandFrame 1#8 3#16 r)
      (ownResume (commandFrame 1#8 3#16 r) (s.taking after .cycle))) :=
    received_takesCommand takes after ownResume 1#8 3#16 [0] (by decide) (by decide)
  have shaped : (s.taking after .cycle).PlanShaped := (State.shaped_of_consistent consistent).of_spm rfl
  have part : s.lkp.part = .run := takes.2.2.2.1
  refine ⟨fun rests => ?_, fun running => ?_, fun bars => ?_, fun paused lid clear => ?_⟩
  · rw [pauses, ownPause, if_neg (show (s.taking after .cycle).spm.plan ≠ .running from rests)]
    exact finish_justAnswers_nil after _ takes.1 .access
  · obtain ⟨frame, rests⟩ := (s.taking after .cycle).pausePlan_report
    rw [ownPause, if_pos (show (s.taking after .cycle).spm.plan = .running from running), State.answer] at pauses
    generalize (State.pausePlan .partner (s.taking after .cycle)).refreshGrant.planReport = v at *
    obtain ⟨-, -, -, -, -, -, -, -, -, spm, -⟩ := State.finish_frame (commandFrame 1#8 2#16 r) (v.answerWith .done [])
    refine ⟨_, pauses, finish_reply _ _ _ _ takes.1, (congrArg Spm.plan spm).trans rests.plan,
      (congrArg (fun m : Spm => m.grant.speed) spm).trans rests.speed, (congrArg Spm.derived spm).trans rests.derived,
      (congrArg Spm.dwellTimer spm).trans rests.dwellTimer, ?_, (congrArg Spm.plateaus spm).trans rests.plateaus,
      planFrame_taking after .cycle (planFrame_finish _ _ _ frame)⟩
    exact (congrArg NoticeSet.planState (State.setPort_lkp _ _ _).2.2.1).trans (rests.op.notices .planState rfl)
  · have fails : ((s.taking after .cycle).spm.plan.isPaused && (s.taking after .cycle).tmo.lid &&
        !(s.taking after .cycle).tripped) = false := by
      change (s.spm.plan.isPaused && s.tmo.lid && !s.tmo.first.isSome) = false
      rcases bars with rests | unlocked | tripped
      · simp [rests]
      · simp [unlocked]
      · simp [Option.isSome_iff_ne_none.2 tripped]
    rw [resumes, ownResume, fails]
    exact finish_justAnswers_nil after _ takes.1 .access
  · have allowed : ((s.taking after .cycle).spm.plan.isPaused && (s.taking after .cycle).tmo.lid &&
        !(s.taking after .cycle).tripped) = true := by
      change (s.spm.plan.isPaused && s.tmo.lid && !s.tmo.first.isSome) = true
      simp [paused, lid, clear]
    obtain ⟨underway, rests⟩ := PlanState.underway_of_paused paused
    have op := (s.taking after .cycle).resumePlan_planOp
    obtain ⟨p, q, before, active, fields, records⟩ :=
      shaped.records underway (op.cores.trans (s.taking after .cycle).resumed_cores)
    have frame := (s.taking after .cycle).resumePlan_frame
    have derives := State.resumePlan_derives (s := s.taking after .cycle) (p := p) rests
    rw [ownResume, allowed, if_pos rfl, State.answer] at resumes
    generalize (s.taking after .cycle).resumePlan = v at *
    obtain ⟨-, -, -, -, -, -, -, -, -, spm, -, -, cls, -⟩ :=
      State.finish_frame (commandFrame 1#8 3#16 r) (v.answerWith .done [])
    have notices : (State.finish (commandFrame 1#8 3#16 r) (v.answerWith .done [])).lkp.notices = v.lkp.notices :=
      (State.setPort_lkp _ _ _).2.2.1
    refine ⟨_, p, q, resumes, finish_reply _ _ _ _ takes.1, ?_, ?_, before, ?_, fields, (congrArg Spm.plateaus spm).trans records,
      planFrame_taking after .cycle (planFrame_finish _ _ _ frame), fun safe released => ?_⟩
    · exact (op.started (Or.inl rfl)).imp (congrArg Spm.plan spm).trans (congrArg Spm.plan spm).trans
    · exact (congrArg NoticeSet.planState notices).trans (op.notices .planState rfl)
    · exact (congrArg (fun m : Spm => m.plateaus.find? Plateau.isActive) spm).trans active
    · have unforced : (s.taking after .cycle).grantForced = false := by
        change (s.tmo.first.isSome || !s.tmo.lid || s.spm.restartHold || decide (s.lkp.part ≠ .run)) = false
        simp [clear, lid, released, part]
      obtain ⟨c, value, given, derived, grant⟩ := derives safe unforced before
      refine ⟨c, value, given, State.derivedFrom_congr spm cls notices derived, fun v is => ?_⟩
      exact (congrArg (fun m : Spm => m.grant.speed) spm).trans (grant v is)

end Sys2Proof.Machine
end

section
/-! ABORT: the plan and its records, the queue emptied with the water of an open valve credited, and SPM's report of it (R106, R146). -/

namespace Sys2Proof.Machine

/-! ### The ring emptied -/

/-- An opening that is cut is none, and windows and timers are nothing to it (R130, R144). -/
theorem State.cutOpening_closes (s : State) :
    s.cutOpening.ric.opening = none ∧ s.cutOpening.ric.windows = s.ric.windows ∧
      s.cutOpening.ric.bleedTimer = s.ric.bleedTimer ∧ s.cutOpening.ric.unknownTimer = s.ric.unknownTimer := by
  unfold State.cutOpening
  split
  · next closed => exact ⟨closed, rfl, rfl, rfl⟩
  · unfold State.credit
    split
    · exact ⟨rfl, rfl, rfl, rfl⟩
    · dsimp only
      split <;> exact ⟨rfl, rfl, rfl, rfl⟩

/-- The water of an open valve goes to the head's chamber when the opening is cut (R130). -/
theorem State.cutOpening_contents {s : State} (valve : s.ric.valveSafe = true) : s.cutOpening.ric.contents =
    match s.ric.queue with
    | [] => s.ric.contents
    | h :: _ => creditedTo h (s.ric.waterSoFar s.capture) s.ric.contents := by
  cases opening : s.ric.opening with
  | none =>
    have dry : s.ric.waterSoFar s.capture = 0 := by rw [Ric.waterSoFar, opening]
    rw [State.cutOpening_closed opening, dry]
    split
    · rfl
    · rw [creditedTo_zero]
  | some o =>
    cases queue : s.ric.queue with
    | nil => simp [Ric.valveSafe, opening, queue] at valve
    | cons h rest =>
      rw [State.cutOpening_open opening queue]
      split <;> rfl

/-- A test of the freeze on a ring with no order and no opening changes flag and service bound at most (R143, R144). -/
theorem State.refreeze_empty {s : State} (queue : s.ric.queue = []) (opening : s.ric.opening = none) :
    s.refreeze.ric = { s.ric with frozen := s.refreeze.ric.frozen, bound := s.refreeze.ric.bound } := by
  have waits : ∀ o, s.ric.queue.head? = some o → o.state = .waiting := by simp [queue]
  unfold State.refreeze
  rw [State.cutOpening_closed opening, State.putBack_waiting waits]
  split_ifs <;> rfl

theorem State.planReport_empty {s : State} (queue : s.ric.queue = []) (opening : s.ric.opening = none) :
    s.planReport.ric = { s.ric with frozen := s.planReport.ric.frozen, bound := s.planReport.ric.bound } := by
  unfold State.planReport
  split
  · exact State.refreeze_empty queue opening
  · have ring : s.closeSpan.ric = s.ric := by simp
    have kept := State.refreeze_empty (s := s.closeSpan) (by rw [ring, queue]) (by rw [ring, opening])
    rwa [ring] at kept

/-! ### ABORT -/

/-- What an ABORT makes of plan, records and ring, before the grant is evaluated (R106). -/
def State.abortTaken (s : State) : State :=
  State.post .plateauEnd (State.post .planState
    { s.cancelOrders with spm := { s.spm with
        plan := .aborted, plateaus := s.spm.plateaus.map Plateau.abort, derived := none, arrival := 0, dwellTimer := none } })

theorem State.abortPlan_eq (s : State) : s.abortPlan = s.abortTaken.refreshGrant.planReport := rfl

theorem Plateau.abort_eq (p : Plateau) : p.abort =
    if p.isActive ∨ p.isQueued then { p with state := .skipped .aborted } else p := by
  unfold Plateau.abort Plateau.isOver
  cases p.isActive <;> cases p.isQueued <;> rfl

/-- The ring after an ABORT is emptied with the water of an open valve credited (R106, R146). -/
theorem State.abortPlan_ring (s : State) :
    s.abortPlan.ric.queue = [] ∧ s.abortPlan.ric.flush = false ∧ s.abortPlan.ric.opening = none ∧
      s.abortPlan.ric.contents = s.cutOpening.ric.contents ∧ s.abortPlan.ric.windows = s.ric.windows ∧
      s.abortPlan.ric.bleedTimer = s.ric.bleedTimer ∧ s.abortPlan.ric.unknownTimer = s.ric.unknownTimer := by
  obtain ⟨opening, windows, bleedTimer, unknownTimer⟩ := s.cutOpening_closes
  have ring : s.abortTaken.refreshGrant.ric = { s.cutOpening.ric with queue := [], flush := false } :=
    (by simp : s.abortTaken.refreshGrant.ric = s.abortTaken.ric)
  have kept := State.planReport_empty (s := s.abortTaken.refreshGrant) (by rw [ring]) (by rw [ring]; exact opening)
  rw [State.abortPlan_eq, kept, ring]
  exact ⟨rfl, rfl, opening, rfl, windows, bleedTimer, unknownTimer⟩

theorem State.abortPlan_sensing (s : State) :
    s.sameSensing s.abortPlan ∧ s.abortPlan.ibe = s.ibe ∧ s.abortPlan.capture = s.capture ∧
      (s.rbt.span = none → s.abortPlan.rbt = s.rbt) := by
  rw [State.abortPlan_eq]
  refine ⟨?_, ?_, ?_, fun closed => ?_⟩
  · simp [State.sameSensing, State.abortTaken, State.post]
  · simp [State.abortTaken, State.post]
  · simp [State.capture, State.inReset, State.abortTaken, State.post]
  · rw [State.planReport_rbt (by simpa [State.abortTaken, State.post] using closed)]
    simp [State.abortTaken, State.post]

/-- Settles O40: plan and records by `State.refreshGrant_report_rests`, the ring by `State.abortPlan_ring`. -/
theorem abortEndsThePlan : Obligations.AbortEndsThePlan := by
  intro after r s takes
  have asks : exec (.abort after r) s = .next (State.finish (commandFrame 1#8 5#16 r)
      (ownAbort (commandFrame 1#8 5#16 r) (s.taking after .cycle))) :=
    received_takesCommand takes after ownAbort 1#8 5#16 [0] (by decide) (by decide)
  refine ⟨fun rests => ?_, fun goesOn => ?_⟩
  · have refused : (s.taking after .cycle).spm.plan.abortable = false := by
      change s.spm.plan.abortable = false
      rcases rests with plan | plan | plan <;> rw [plan] <;> rfl
    rw [asks, ownAbort, refused]
    exact finish_justAnswers_nil after _ takes.1 .access
  · have taken : (s.taking after .cycle).spm.plan.abortable = true := by
      change s.spm.plan.abortable = true
      rcases goesOn with plan | plan | ⟨why, plan⟩ <;> rw [plan] <;> rfl
    rw [ownAbort, taken, if_pos rfl] at asks
    have rests := State.refreshGrant_report_rests (s := (s.taking after .cycle).abortTaken) nofun nofun
    rw [← State.abortPlan_eq] at rests
    obtain ⟨queue, flush, opening, contents, windows, bleedTimer, unknownTimer⟩ := (s.taking after .cycle).abortPlan_ring
    obtain ⟨sensing, ibe, capture, bands⟩ := (s.taking after .cycle).abortPlan_sensing
    have plateaus : (s.taking after .cycle).abortPlan.spm.plateaus = s.spm.plateaus.map
        (fun p => if p.isActive ∨ p.isQueued then { p with state := .skipped .aborted } else p) :=
      rests.plateaus.trans (List.map_congr_left fun p _ => p.abort_eq)
    have sensed := State.sameSensing_answered sensing (commandFrame 1#8 5#16 r) .done []
    generalize (s.taking after .cycle).abortPlan = v at *
    obtain ⟨time, rst, -, -, -, -, -, ibeF, rbtF, spmF, ricF, -⟩ :=
      State.finish_frame (commandFrame 1#8 5#16 r) (v.answerWith .done [])
    have noticesF : (State.finish (commandFrame 1#8 5#16 r) (v.answerWith .done [])).lkp.notices = v.lkp.notices :=
      (State.setPort_lkp _ _ _).2.2.1
    have captureF : (State.finish (commandFrame 1#8 5#16 r) (v.answerWith .done [])).capture = (s.taking after .cycle).capture := by
      refine Eq.trans ?_ capture
      unfold State.capture State.inReset
      rw [time, rst]
      rfl
    replace asks : exec (.abort after r) s = .next (State.finish (commandFrame 1#8 5#16 r) (v.answerWith .done [])) := asks
    refine ⟨_, asks, finish_reply _ _ _ _ takes.1, (congrArg Spm.plan spmF).trans rests.plan,
      (congrArg Spm.plateaus spmF).trans plateaus, (congrArg (fun m : Spm => m.grant.speed) spmF).trans rests.speed,
      (congrArg Spm.derived spmF).trans rests.derived, (congrArg Spm.dwellTimer spmF).trans rests.dwellTimer,
      (congrArg Ric.queue ricF).trans queue, (congrArg Ric.flush ricF).trans flush,
      (congrArg (fun q : Ric => q.opening.isSome) ricF).trans (congrArg Option.isSome opening), fun safe => ?_,
      (congrArg Ric.windows ricF).trans windows, (congrArg Ric.bleedTimer ricF).trans bleedTimer,
      (congrArg Ric.unknownTimer ricF).trans unknownTimer,
      (congrArg NoticeSet.planState noticesF).trans (rests.op.notices .planState rfl),
      (congrArg NoticeSet.plateauEnd noticesF).trans (rests.op.notices .plateauEnd rfl),
      (congrArg Spm.guard spmF).trans rests.op.guard, ibeF.trans ibe, sensed, fun closed => rbtF.trans (bands closed)⟩
    simp only [State.ringSafe, Bool.and_eq_true, decide_eq_true_eq] at safe
    obtain ⟨-, valve⟩ := safe
    rw [captureF]
    exact (congrArg Ric.contents ricF).trans
      (contents.trans (State.cutOpening_contents (s := s.taking after .cycle) valve))

end Sys2Proof.Machine
end

section
/-! The lid and the strike switch after their debounce: what an unlocked lid and a trip force (R119, R120, R143, R156, R160). -/

namespace Sys2Proof.Machine

/-! ### The ring under a freeze -/

/-- With the queue frozen no water flows (R142, R144). -/
theorem State.closed_of_frozen {s t : State} (safe : s.ringSafe = true) (follows : s.ringFollows t)
    (frozen : t.ric.frozen = true) : t.valveLine = false := by
  simp only [State.ringSafe, Bool.and_eq_true] at safe
  obtain ⟨-, valve⟩ := safe
  obtain ⟨-, ⟨freezes, stays⟩, -⟩ := follows
  have closed : t.ric.opening = none := by
    cases before : s.ric.frozen with
    | false => exact (freezes before frozen).1
    | true =>
      obtain ⟨-, -, opening, -⟩ := stays (Or.inl before)
      rw [opening]
      unfold Ric.valveSafe at valve
      split at valve
      · assumption
      · exact absurd valve (by decide)
      · simp [before] at valve
  simp [State.valveLine, closed]

/-- Only the test of the freeze touches the ring at a report (R143, R144). -/
theorem State.planReport_ringFollows {s u : State} (ring : u.ric = s.ric) (safe : s.ringSafe = true) :
    s.ringFollows u.planReport := by
  simp only [State.ringSafe, Bool.and_eq_true] at safe
  obtain ⟨⟨-, fits⟩, valve⟩ := safe
  exact State.planReport_follows ring fits valve

/-! ### A pause that is taken -/

/-- A pause tells the cycle port and leaves the part state (R93, R171). -/
theorem State.takePause_lkp (r : PauseReason) (s : State) : (s.takePause r).lkp.part = s.lkp.part ∧
    ∀ n, s.lkp.notices.has n = true → (s.takePause r).lkp.notices.has n = true := by
  unfold State.takePause
  split
  · exact ⟨rfl, fun _ posted => posted⟩
  · exact ⟨rfl, fun n posted => (State.post_planOp .planState s).notices n posted⟩

theorem State.takePause_plan (r : PauseReason) (s : State) : (s.takePause r).spm.plan = .paused r := by
  unfold State.takePause
  split
  · assumption
  · rfl

theorem State.lidPlan_lkp (s : State) : s.lidPlan.lkp.part = s.lkp.part ∧
    ∀ n, s.lkp.notices.has n = true → s.lidPlan.lkp.notices.has n = true := by
  unfold State.lidPlan
  split
  · exact s.takePause_lkp _
  · exact s.takePause_lkp _
  · exact ⟨rfl, fun _ posted => posted⟩

/-- The lid pauses a plan that may move the basket (R120). -/
theorem State.lidPlan_plan (s : State) : s.lidPlan.spm.plan =
    if s.spm.plan = .running ∨ s.spm.plan = .paused .rebalance then .paused .lid else s.spm.plan := by
  unfold State.lidPlan
  split
  · next running => rw [if_pos (Or.inl running), State.takePause_plan]
  · next paused => rw [if_pos (Or.inr paused), State.takePause_plan]
  · next running paused => rw [if_neg (not_or.2 ⟨running, paused⟩)]

/-! ### The lid -/

theorem exec_lidDebounceExpiry {s : State} {τ : Nat} (timer : s.tmo.lidTimer = some τ) (live : s.inReset = false) :
    exec .lidDebounceExpiry s = .next (State.lidSettles { s with time := max s.time τ }) := by
  simp only [exec, execLidDebounceExpiry, onExpiry_runs timer live]

/-- An unlocked lid: LID is posted, the plan rests with a grant of 0, and the queue is frozen (R119, R120, R143, R160). -/
theorem State.unlockLid_spec (s : State) :
    s.unlockLid.tmo = { s.tmo with lid := false } ∧ s.unlockLid.lkp.notices.lid = true ∧ s.unlockLid.spm.grant.speed = 0 ∧
    s.unlockLid.spm.plan =
      (if s.spm.plan = .running ∨ s.spm.plan = .paused .rebalance then .paused .lid else s.spm.plan) ∧
    s.unlockLid.ric.frozen = true ∧ s.unlockLid.lkp.part = s.lkp.part := by
  let posted := State.post .lid { s with tmo := { s.tmo with lid := false } }
  have plan := posted.lidPlan_plan
  obtain ⟨part, notices⟩ := posted.lidPlan_lkp
  have rests : posted.lidPlan.Rests s.unlockLid := by
    refine State.refreshGrant_report_rests ?_ ?_ <;> rw [plan] <;> split <;> simp_all
  have tmo : s.unlockLid.tmo = { s.tmo with lid := false } := by simp [State.unlockLid, State.post]
  have frozen : s.unlockLid.ric.frozen = s.unlockLid.freezeCondition := State.planReport_frozen _
  refine ⟨tmo, ?_, rests.speed, rests.plan.trans plan, ?_, rests.op.part.trans part⟩
  · exact rests.op.notices .lid (notices .lid rfl)
  · simp [frozen, State.freezeCondition, tmo]

/-- A locked lid starts nothing by itself: the plan goes on from where it is (R119, R143, R161). -/
theorem State.lockLid_spec (s : State) :
    s.lockLid.tmo = { s.tmo with lid := true } ∧ (s.spm.plan ≠ .running → s.lockLid.spm.plan = s.spm.plan) ∧
    s.lockLid.ric.frozen = s.lockLid.freezeCondition ∧ s.lockLid.lkp.part = s.lkp.part := by
  have op : State.PlanOp { s with tmo := { s.tmo with lid := true } } s.lockLid :=
    (State.unforceGrant_planOp _).trans (State.planReport_planOp _)
  exact ⟨by simp [State.lockLid], op.idle_plan, State.planReport_frozen _, op.part⟩

/-- Settles O22: a lid by its level, the ring by the report that ends either event. -/
theorem lidSettles : Obligations.LidSettles := by
  intro τ s timer live
  rw [exec_lidDebounceExpiry timer live]
  refine ⟨fun unlocked safe => ?_, fun locked => ?_⟩
  · let u : State := { s with time := max s.time τ, tmo := { s.tmo with lidTimer := none } }
    have settles : State.lidSettles { s with time := max s.time τ } = u.unlockLid := if_neg (by simp [unlocked])
    obtain ⟨tmo, notice, speed, plan, frozen, part⟩ := u.unlockLid_spec
    have follows : s.ringFollows u.unlockLid := State.planReport_ringFollows (by simp [State.post, u]) safe
    obtain ⟨time, -, -, strikePin, lidPin, rtb, csm, ibe, cls, -⟩ := u.unlockLid_frame
    exact ⟨_, congrArg _ settles, time, tmo, notice, speed, plan, frozen, State.closed_of_frozen safe follows frozen, follows,
      rtb, csm, ibe, cls, part, strikePin, lidPin⟩
  · let u : State := { s with time := max s.time τ, tmo := { s.tmo with lidTimer := none } }
    have settles : State.lidSettles { s with time := max s.time τ } = u.lockLid := if_pos locked
    obtain ⟨tmo, plan, frozen, part⟩ := u.lockLid_spec
    have follows (safe : s.ringSafe = true) : s.ringFollows u.lockLid := State.planReport_ringFollows (by simp [u]) safe
    obtain ⟨time, -, -, strikePin, lidPin, rtb, csm, ibe, cls, -⟩ := u.lockLid_frame
    exact ⟨_, congrArg _ settles, time, tmo, plan, frozen, follows, rtb, csm, ibe, cls, part, strikePin, lidPin⟩

end Sys2Proof.Machine
end

section
/-! A trip: what the latch's handing leaves of the grant, the ring and the plan (R119, R120, R143, R155, R156), and the strike
switch that finds the cause STRIKE (R151). -/

namespace Sys2Proof.Machine

theorem CauseSet.add_of_has {c : Cause} {v : CauseSet} (found : v.has c = true) : v.add c = v := by
  cases v
  cases c <;> simp_all [CauseSet.has, CauseSet.add]

/-! ### The latch stays handed -/

/-- What stands in `t` once the latch has been handed on with the cause `c` found in `s`: the grant forced to 0, the queue frozen as
R144 says, the notice and the pause, and the corners as they were (R119, R120, R143, R156). -/
structure State.TripHanded (c : Cause) (s t : State) : Prop where
  tripped : t.tripped = true
  speed : t.spm.grant.speed = 0
  ring : s.ringSafe = true → t.ric.frozen = true ∧ s.ringFollows t
  notice : s.tmo.causes.has c = false → t.lkp.notices.has .trip = true
  plan : s.spm.plan.underway = true → s.tmo.first = none → t.spm.plan = .paused .trip
  corners : t.csm.corners = s.csm.corners
  window : t.csm.window = s.csm.window

theorem State.samplerPart_corners (old new : PartState) (s : State) :
    (s.samplerPart old new).csm.corners = s.csm.corners ∧ (s.samplerPart old new).csm.window = s.csm.window := by
  unfold State.samplerPart
  split
  · exact ⟨rfl, rfl⟩
  · split
    · exact ⟨rfl, rfl⟩
    · split <;> exact ⟨rfl, rfl⟩

theorem State.partHanded_tmo (p : PartState) (s : State) : (s.partHanded p).tmo = s.tmo := by
  unfold State.partHanded
  dsimp only
  split <;> simp

/-- A state that is tripped must have its queue frozen (R143). -/
theorem State.freezeCondition_of_tripped {s : State} (tripped : s.tripped = true) : s.freezeCondition = true := by
  simp [State.freezeCondition, tripped]

section

variable {c : Cause} {s t : State} (h : s.TripHanded c t)
include h

theorem State.TripHanded.post (n : Notice) : s.TripHanded c (t.post n) :=
  ⟨h.tripped, h.speed, h.ring, fun found => (State.post_planOp n t).notices .trip (h.notice found), h.plan, h.corners, h.window⟩

/-- The timers of the part state are nothing to a trip. -/
theorem State.TripHanded.timers (quietTimer wakeTimer : Option Nat) :
    s.TripHanded c { t with lkp := { t.lkp with quietTimer := quietTimer, wakeTimer := wakeTimer } } :=
  ⟨h.tripped, h.speed, h.ring, h.notice, h.plan, h.corners, h.window⟩

/-- A change of part state ends nothing that the trip forces. -/
theorem State.TripHanded.setPart (p : PartState) : s.TripHanded c (t.setPart p) := by
  obtain ⟨time, rst, -, -, -, -, tmo, -⟩ := t.setPart_frame p
  obtain ⟨-, -, -, -, -, notices, frozen, -⟩ := t.setPart_spec p
  obtain ⟨ric, spm⟩ := t.partHanded_frame p
  obtain ⟨corners, window⟩ := t.samplerPart_corners t.lkp.part p
  have forced : (t.partHanded p).grantForced = true := by
    have stays : (t.partHanded p).tripped = true := (congrArg (fun m => m.first.isSome) (t.partHanded_tmo p)).trans h.tripped
    simp [State.grantForced, stays]
  have set : t.setPart p = (t.partHanded p).refreshGrant.planReport := by
    rw [State.setPart_eq, State.unforceGrant, if_pos forced, ite_self]
  have op := (t.partHanded p).refreshGrant_planOp.trans (State.planReport_planOp _)
  rw [← set] at op
  have tripped : (t.setPart p).tripped = true := (congrArg (fun m => m.first.isSome) tmo).trans h.tripped
  rw [State.freezeCondition_of_tripped tripped] at frozen
  refine ⟨tripped, ?_, fun safe => ?_, fun found => notices _ (h.notice found), fun underway first => ?_, ?_, ?_⟩
  · rw [set]
    refine State.planReport_forced ?_ (State.evaluateGrant_forced _ forced)
    rw [(State.refreshGrant_planOp _).grantForced (by simp), forced]
  · obtain ⟨before, follows⟩ := h.ring safe
    have ring : (t.setPart p).ric = t.ric := by
      have held : (t.partHanded p).refreshGrant.freezeCondition = true :=
        State.freezeCondition_of_tripped (by simpa [State.tripped, State.partHanded_tmo] using h.tripped)
      rw [set, State.planReport_ric (by simp [held, ric, before])]
      simp [ric]
    have capture : (t.setPart p).capture = t.capture := by rw [State.capture, State.capture, State.inReset, State.inReset, time, rst]
    obtain ⟨-, orders, rest⟩ := follows
    refine ⟨frozen, frozen.trans (State.freezeCondition_of_tripped tripped).symm, ?_, ?_⟩
    · rwa [ring, capture]
    · rwa [ring]
  · have paused := h.plan underway first
    rw [op.idle_plan (by simp [spm, paused]), spm, paused]
  · rw [State.setPart_csm, corners, h.corners]
  · rw [State.setPart_csm, window, h.window]

theorem State.TripHanded.cancelQuiet : s.TripHanded c t.cancelQuiet := (h.timers none t.lkp.wakeTimer).setPart .run

theorem State.TripHanded.wakeSource : s.TripHanded c (t.wakeSource false) := by
  unfold State.wakeSource
  dsimp only
  split
  · exact ((h.timers t.lkp.quietTimer (t.timerFor wakeTime)).setPart .waking).post .wake
  · exact h.post .wake
  · exact h
  · exact h
  · exact h

end

/-! ### A cause is found -/

/-- The latch takes the first cause found, and the causes each one (R155). -/
theorem State.findCause_tmo {s : State} (consistent : s.causesConsistent = true) (c : Cause) : (s.findCause c).tmo =
    { s.tmo with first := some (s.tmo.first.getD c), causes := s.tmo.causes.add c } := by
  unfold State.causesConsistent at consistent
  unfold State.findCause
  split at consistent
  · next first =>
    simp only [first, decide_eq_true_eq] at consistent ⊢
    simp [State.post, consistent]
  · next d first =>
    simp only [first]
    split
    · next found => rw [CauseSet.add_of_has found, Option.getD_some, ← first]
    · simp [State.post]

theorem State.tripPlan_plan (s : State) (underway : s.spm.plan.underway = true) : s.tripPlan.spm.plan = .paused .trip := by
  rw [State.tripPlan, if_pos underway, State.takePause_plan]

theorem State.tripPlan_lkp (s : State) : s.tripPlan.lkp.part = s.lkp.part ∧
    ∀ n, s.lkp.notices.has n = true → s.tripPlan.lkp.notices.has n = true := by
  unfold State.tripPlan
  split
  · exact s.takePause_lkp _
  · exact ⟨rfl, fun _ posted => posted⟩

/-- The first cause is latched: TRIP is posted and the latch reported to SPM and RIC, and to LKP after it (R156). -/
def State.latched (c : Cause) (s : State) : State :=
  State.post .trip { s with tmo := { s.tmo with first := some c, causes := CauseSet.none.add c } }

theorem State.latched_handed (c : Cause) (s : State) : s.TripHanded c (s.latched c).tripPlan.refreshGrant.planReport := by
  have op := (s.latched c).tripPlan.refreshGrant_planOp
  have reported := op.trans (State.planReport_planOp _)
  have forced : (s.latched c).tripPlan.grantForced = true := by simp [State.grantForced, State.tripped, State.latched, State.post]
  have tripped : (s.latched c).tripPlan.refreshGrant.planReport.tripped = true := by
    simp [State.tripped, State.latched, State.post]
  refine ⟨tripped, ?_, fun safe => ⟨?_, ?_⟩, fun _ => ?_, fun underway _ => ?_, ?_, ?_⟩
  · exact State.planReport_forced (by rw [op.grantForced (by simp), forced]) (State.evaluateGrant_forced _ forced)
  · rw [State.planReport_frozen, State.freezeCondition_of_tripped tripped]
  · exact State.planReport_ringFollows (by simp [State.latched, State.post]) safe
  · exact reported.notices .trip ((s.latched c).tripPlan_lkp.2 .trip rfl)
  · have paused := (s.latched c).tripPlan_plan underway
    rw [reported.idle_plan (by simp [paused]), paused]
  · simp [State.latched, State.post]
  · simp [State.latched, State.post]

/-- A cause found in a state whose grant is safe leaves the trip handed, whether or not the latch was set before. -/
theorem State.findCause_handed {s : State} (safe : s.grantSafe = true) (c : Cause) : s.TripHanded c (s.findCause c) := by
  cases first : s.tmo.first with
  | none =>
    have handed := s.latched_handed c
    have found : s.findCause c = (s.latched c).handTrip := by rw [State.findCause, first]; rfl
    rw [found, State.handTrip]
    split
    · exact handed.cancelQuiet
    · exact handed
  | some d =>
    have tripped : s.tripped = true := by simp [State.tripped, first]
    have speed : s.spm.grant.speed = 0 := (s.grantSafe_iff.1 safe).1 (by simp [State.grantForced, tripped])
    have ring (fits : s.ringSafe = true) : s.ric.frozen = true ∧ s.ringFollows s := by
      simp only [State.ringSafe, Bool.and_eq_true, decide_eq_true_eq] at fits
      obtain ⟨⟨right, -⟩, -⟩ := fits
      have frozen := right.trans (State.freezeCondition_of_tripped tripped)
      refine ⟨frozen, right, ⟨fun thawed => ?_, fun _ => ⟨rfl, rfl, rfl, rfl, ?_⟩⟩, rfl, rfl, rfl⟩
      · exact absurd (thawed.symm.trans frozen) (by decide)
      · rw [if_neg fun ends => absurd (ends.2.symm.trans frozen) (by decide)]
    rw [State.findCause, first]
    dsimp only
    split
    · next has => exact ⟨tripped, speed, ring, fun lacks => absurd (has.symm.trans lacks) (by decide),
        fun _ clear => absurd (first.symm.trans clear) nofun, rfl, rfl⟩
    · exact ⟨tripped, speed, ring, fun _ => State.post_has .trip _, fun _ clear => absurd (first.symm.trans clear) nofun, rfl, rfl⟩

/-- Of the part states a trip ends QUIET_PENDING alone (R175). -/
theorem State.findCause_part {s : State} (settled : s.lkp.part ≠ .quietPending) (c : Cause) :
    (s.findCause c).lkp.part = s.lkp.part := by
  have part : (s.latched c).tripPlan.refreshGrant.planReport.lkp.part = s.lkp.part :=
    ((State.refreshGrant_planOp _).trans (State.planReport_planOp _)).part.trans (s.latched c).tripPlan_lkp.1
  cases first : s.tmo.first with
  | none =>
    have found : s.findCause c = (s.latched c).handTrip := by rw [State.findCause, first]; rfl
    rw [found, State.handTrip]
    rw [if_neg (by rw [part]; exact settled), part]
  | some d =>
    rw [State.findCause, first]
    dsimp only
    split <;> rfl

/-! ### The strike switch -/

theorem exec_strikeDebounceExpiry {s : State} {τ : Nat} (timer : s.tmo.strikeTimer = some τ) (live : s.inReset = false) :
    exec .strikeDebounceExpiry s = .next (State.strikeSettles { s with time := max s.time τ }) := by
  simp only [exec, execStrikeDebounceExpiry, onExpiry_runs timer live]

/-- Settles O21: what the trip leaves handed (`State.findCause_handed`) stands through the wake of a QUIET part. -/
theorem strikeSettles : Obligations.StrikeSettles := by
  intro τ s timer live
  rw [exec_strikeDebounceExpiry timer live]
  refine ⟨fun released => ?_, fun struck consistent safe => ?_⟩
  · simp [State.strikeSettles, released]
  · let u : State := { s with time := max s.time τ, tmo := { s.tmo with strike := true, strikeTimer := none } }
    have settles : State.strikeSettles { s with time := max s.time τ } = (u.findCause .strike).wakeSource false := by
      simp [State.strikeSettles, struck, u]
    have handed : u.TripHanded .strike ((u.findCause .strike).wakeSource false) :=
      (State.findCause_handed (s := u) safe .strike).wakeSource
    obtain ⟨-, -, -, -, -, -, wakes, -⟩ := (u.findCause .strike).wakeSource_frame false
    have tmo := wakes.trans (State.findCause_tmo (s := u) consistent .strike)
    refine ⟨_, congrArg _ settles, by simp [u], tmo, ?_, handed.speed, handed.notice, handed.plan, fun quiet => ?_,
      fun run => ?_, handed.ring, by simp [u], by simp [u], by simp [u], by simp [u], handed.corners, handed.window⟩
    · rw [State.tripLine, handed.tripped, Bool.true_or]
    · have part : (u.findCause .strike).lkp.part = .quiet := (State.findCause_part (by simp [u, quiet]) _).trans quiet
      obtain ⟨waking, wake, wakeTimer, -⟩ := State.wakeSource_quiet part
      refine ⟨waking, wake, wakeTimer.trans ?_⟩
      simp [u]
    · have part : (u.findCause .strike).lkp.part = .run := (State.findCause_part (by simp [u, run]) _).trans run
      rw [State.wakeSource, part]
      exact part

end Sys2Proof.Machine
end
